-- ==== Sys2Proof/Word.lean ====
section
/-! DEFINITION. The value types of the engine: the byte, the sixteen-byte vector and the words that carry them. The widths are fixed by rule R9 of 00_scope.md (`VLEN_BYTES` 16, `LANE_BITS` 8, `COUNT_BITS` 8, `OP_BITS` 1, `REQ_BITS` 265) and are no arguments of anything. -/

namespace Sys2Proof

/-- A byte: an unsigned 8-bit value, never read as signed (R11). -/
abbrev Byte := BitVec 8

/-- A ByteVector16: exactly sixteen bytes, lane 0 first and least significant, lane 15 last and most significant (R12, R13, R14). A value with no identity beyond its bytes. -/
abbrev ByteVector16 := Vector Byte 16

/-- The shift count of AlignRight, in byte lanes, 0 to 255 (R16). -/
abbrev Count := BitVec 8

/-- The operation select, one bit (R43, R49). -/
abbrev OpSelect := BitVec 1

/-- What a 128-bit vector port carries (R43). -/
abbrev PortVec := BitVec 128

/-- A control word `CTL`: the select at bit 8 and the count at bits 7 to 0 (R49). -/
abbrev CtlWord := BitVec 9

/-- A request word `REQ` of 265 bits (R50). -/
abbrev ReqWord := BitVec 265

end Sys2Proof
end

