-- ==== Sys2Proof/Config.lean ====
section
/-! DEFINITION. The two open parameters of an instance (R9). Neither has a body: nothing can be proved about which number or style an instance has, so what is proved holds for each. No rule that computes a value reads either. -/

namespace Sys2Proof

/-- When the reset input counts as asserted (R92). -/
inductive ResetSampling where
  /-- Only the level at the clock edge counts. -/
  | synchronous
  /-- Any level in the cycle counts, at once. -/
  | asynchronous
deriving DecidableEq, Repr, Inhabited

/-- Which level asserts the reset input (R92). -/
inductive ResetPolarity where
  | activeHigh
  | activeLow
deriving DecidableEq, Repr, Inhabited

/-- `RESET_STYLE` (R9, R92): one of four. -/
structure ResetStyle where
  sampling : ResetSampling
  polarity : ResetPolarity
deriving DecidableEq, Repr, Inhabited

/-- `LATENCY` (R9): clock cycles from a request to its response, the same for every request of the instance; 0 is a combinational engine (R91). Left open by the spec (93 U5); notes/assumptions/5.md. -/
opaque Config.latency : Nat

/-- `RESET_STYLE` of the instance (R92). Left open by the spec (93 U6); notes/assumptions/6.md. -/
opaque Config.resetStyle : ResetStyle

end Sys2Proof
end

