-- ==== Sys2Proof/Machine/Operands.lean ====
section
/-! DEFINITION. The value layer: how the sixteen lanes lie in 128 bits (R33), construction from a listing (R19), equality (R20), and the vectors the spec names in 00_scope.md section 7.2. None of these is an operation of the engine (R21). -/

namespace Sys2Proof.Machine

/-- Bytes as one number, the first byte the least significant. -/
def flatNat : List Byte → Nat
  | [] => 0
  | b :: bs => b.toNat + 256 * flatNat bs

/-- `flat(V)`: the sum over the lanes of `V[i] * 2^(8*i)` (R33). -/
def flat (V : ByteVector16) : PortVec := BitVec.ofNat 128 (flatNat V.toList)

/-- `lanes(w)`: the vector whose lane `i` is bits `8*i+7` to `8*i` of `w` (R33). -/
def lanes (w : PortVec) : ByteVector16 := Vector.ofFn fun i => w.extractLsb' (8 * i.val) 8

/-- `Make16`: sixteen bytes given from lane 15 down to lane 0 (R19). -/
def make16 (e15 e14 e13 e12 e11 e10 e9 e8 e7 e6 e5 e4 e3 e2 e1 e0 : Byte) : ByteVector16 :=
  #v[e0, e1, e2, e3, e4, e5, e6, e7, e8, e9, e10, e11, e12, e13, e14, e15]

/-- A listing written from lane 15 down to lane 0 (R19): exactly sixteen values, or none (R14). -/
def ofListing (l : List Byte) : Option ByteVector16 :=
  if h : l.length = 16 then some ⟨l.reverse.toArray, by simp [h]⟩ else none

/-- The listing of a vector, lane 15 first (R19). -/
def listing (V : ByteVector16) : List Byte := V.toList.reverse

/-- `Eq16`: all sixteen corresponding bytes match (R20). -/
def eq16 (V W : ByteVector16) : Bool := (List.finRange 16).all fun i => V[i] == W[i]

/-- `ZERO`: every lane 0. -/
def zeroVec : ByteVector16 := Vector.ofFn fun _ => 0

/-- `IOTA`: lane `i` holds `i`. -/
def iota : ByteVector16 := Vector.ofFn fun i => BitVec.ofNat 8 i.val

/-- The index field of a selector byte, bits 3 to 0: `sel & 0x0F` (R70, R71). -/
def laneIndex (sel : Byte) : Nat := (sel &&& 0x0F#8).toNat

end Sys2Proof.Machine
end

