-- ==== Sys2Proof/Syntax.lean ====
section
/-! DEFINITION. The two operations of the engine as syntax, the record of its input ports, and the listing and script forms of the requester. Raw port values become an `Instr` in Sys2Proof/Decode.lean. -/

namespace Sys2Proof

/-- An operation with its operands. The operation set is exactly these two (R2); operands are values and no register names them (R22). -/
inductive Instr where
  /-- `AlignRight(high, low, count)` (R59). -/
  | alignRight (high low : ByteVector16) (count : Count)
  /-- `ShuffleBytes(source, selector)`; it has no count operand (R69, R78). -/
  | shuffleBytes (source selector : ByteVector16)
deriving DecidableEq, Repr

/-- What the input ports carry in one cycle (R43). `rst` says whether reset is asserted in the cycle; the level and the sampling of the pin are in Sys2Proof/Machine/Pins.lean. A step is one clock cycle, so `clk` is no field. -/
structure Ports where
  rst : Bool
  reqValid : Bool
  reqOp : OpSelect
  reqCount : Count
  reqA : PortVec
  reqB : PortVec
deriving DecidableEq, Repr

/-- What the engine makes of one cycle's ports (R46, R48, R83, R94). -/
inductive Presented where
  /-- Reset is asserted: nothing is accepted. -/
  | reset
  /-- No request is presented. -/
  | idle
  /-- One request is presented, and so accepted. -/
  | request (i : Instr)
deriving DecidableEq, Repr

/-- A vector operand of a listing: a name the requester has bound, or a literal (R56). -/
inductive Operand where
  | name (n : String)
  | literal (v : ByteVector16)
deriving DecidableEq, Repr

/-- A listed operation. The count is the number as written: whether it fits the 8-bit field is a check of Sys2Proof/WellFormed.lean (R56). -/
inductive Call where
  | alignRight (high low : Operand) (count : Nat)
  | shuffleBytes (source selector : Operand)
deriving DecidableEq, Repr

/-- One line of a script (R57). -/
inductive Line where
  /-- `name = literal`: binds the name; no request is sent. -/
  | bind (n : String) (v : ByteVector16)
  /-- `name = operation`: one request; the name is bound to its response. -/
  | op (n : String) (c : Call)
deriving DecidableEq, Repr

/-- A script: lines carried out top to bottom by the requester (R57). -/
abbrev Script := List Line

end Sys2Proof
end

