-- ==== Sys2Proof/WellFormed.lean ====
section
/-! DEFINITION. What is well formed: every operation (R54), and those listings and scripts that R56 and R57 accept. A script that is not is refused as a whole, by the name of its first defect. -/

namespace Sys2Proof

/-- Every `Instr` is well formed: every bit pattern is a valid operand of both operations (R18), every count is legal (R7), and the types hold nothing else. -/
def Instr.wf : Instr → Bool
  | .alignRight _ _ _ => true
  | .shuffleBytes _ _ => true

/-- Why a script is refused. Raised by the requester before any request is sent; the engine never sees the script. Safe: the spec gives such a script no meaning (R56, R57). -/
inductive ScriptError where
  /-- A count outside 0 to 255 (R56). -/
  | countTooLarge (n : Nat)
  /-- An operand that no earlier line has bound (R57). -/
  | unboundName (n : String)
  /-- A name bound a second time (R57). -/
  | boundTwice (n : String)
  /-- A response read in a cycle that has none (R95); `runScript` from a state that meets the queue invariant with nothing else driven never answers it. -/
  | noResponse
deriving DecidableEq, Repr

/-- The name of an operand is bound by an earlier line (R57). -/
def Operand.check (bound : List String) : Operand → Except ScriptError Unit
  | .literal _ => .ok ()
  | .name n => if n ∈ bound then .ok () else .error (.unboundName n)

/-- The name an operand uses, if it is one. -/
def Operand.uses : Operand → List String
  | .literal _ => []
  | .name n => [n]

/-- A listed count fits the 8-bit field; it is refused and not reduced when it does not (R56). -/
def countCheck (n : Nat) : Except ScriptError Unit :=
  if n < 256 then .ok () else .error (.countTooLarge n)

/-- The operands of a listed operation are bound and its count fits. -/
def Call.check (bound : List String) : Call → Except ScriptError Unit
  | .alignRight x y n => do x.check bound; y.check bound; countCheck n
  | .shuffleBytes x y => do x.check bound; y.check bound

/-- The names a listed operation uses as operands. -/
def Call.uses : Call → List String
  | .alignRight x y _ => x.uses ++ y.uses
  | .shuffleBytes x y => x.uses ++ y.uses

/-- The count of a listed operation fits the 8-bit field, if it has one. -/
def Call.countFits : Call → Bool
  | .alignRight _ _ n => decide (n < 256)
  | .shuffleBytes _ _ => true

/-- The names a line uses. -/
def Line.uses : Line → List String
  | .bind _ _ => []
  | .op _ c => c.uses

/-- The counts of a line fit. -/
def Line.countFits : Line → Bool
  | .bind _ _ => true
  | .op _ c => c.countFits

/-- The name a line binds. -/
def Line.target : Line → String
  | .bind n _ => n
  | .op n _ => n

/-- One line, after lines that bound `bound`: its operands are bound, and its own name is not (R57). -/
def Line.check (bound : List String) : Line → Except ScriptError Unit
  | .bind n _ => if n ∈ bound then .error (.boundTwice n) else .ok ()
  | .op n c => do c.check bound; if n ∈ bound then .error (.boundTwice n) else .ok ()

/-- All lines in order, each after the names bound above it. -/
def Script.checkFrom : List String → Script → Except ScriptError Unit
  | _, [] => .ok ()
  | bound, l :: ls => do l.check bound; Script.checkFrom (bound ++ [l.target]) ls

/-- A whole script, no name being bound at its start (R57). -/
def Script.check (ls : Script) : Except ScriptError Unit := Script.checkFrom [] ls

/-- The script is accepted. -/
def Script.wf (ls : Script) : Bool := ls.check.isOk

end Sys2Proof
end

