-- ==== Sys2Proof/Decode.lean ====
section
/-! DEFINITION. From the bits of a request to an operation, and back (R45, R49, R50, R52 to R55). Decoding of control words, of request words and of ports is total and never answers that a word is invalid (R54). Only a number too wide to be such a word is refused, by name. After the decoders stand the encoders. -/

namespace Sys2Proof

/-- Why a number is refused as a word. Raised by the reader of the notation and never by the engine. Safe: the spec has no such word (R50, R51). -/
inductive DecodeError where
  /-- 2^265 or more: no request word (R50). -/
  | requestWordTooWide
  /-- 2^9 or more: no control word (R49). -/
  | controlWordTooWide
deriving DecidableEq, Repr

/-- The operation selected by `op`, with the operands where R45 puts them; ShuffleBytes ignores the count (R47, R52, R53, R78). -/
def decodeFields (op : OpSelect) (count : Count) (a b : PortVec) : Instr :=
  if op = 0 then .alignRight (Machine.lanes a) (Machine.lanes b) count
  else .shuffleBytes (Machine.lanes a) (Machine.lanes b)

/-- A request word: `op` at bit 264, `count` at 263 to 256, `a` at 255 to 128, `b` at 127 to 0 (R50). -/
def decodeReq (w : ReqWord) : Instr :=
  decodeFields (w.extractLsb' 264 1) (w.extractLsb' 256 8) (w.extractLsb' 128 128)
    (w.extractLsb' 0 128)

/-- A control word, the two vectors arriving beside it on their ports (R49). -/
def decodeCtl (c : CtlWord) (a b : PortVec) : Instr :=
  decodeFields (c.extractLsb' 8 1) (c.extractLsb' 0 8) a b

/-- Any natural number read as a request word. -/
def decodeReqNat (n : Nat) : Except DecodeError Instr :=
  if n < 2 ^ 265 then .ok (decodeReq (BitVec.ofNat 265 n)) else .error .requestWordTooWide

/-- Any natural number read as a control word, beside the two vectors. -/
def decodeCtlNat (n : Nat) (a b : PortVec) : Except DecodeError Instr :=
  if n < 2 ^ 9 then .ok (decodeCtl (BitVec.ofNat 9 n) a b) else .error .controlWordTooWide

/-- The request on the ports, whether or not `req_valid` says there is one (R44). -/
def decodePorts (p : Ports) : Instr := decodeFields p.reqOp p.reqCount p.reqA p.reqB

/-- What an engine of latency `L` makes of a cycle. A reset wins over a request (R83, R94); an engine of latency 0 has no reset input (R91); the other ports are ignored while `req_valid` is 0 (R46); a presented request is always accepted (R48). -/
def Ports.presented (L : Nat) (p : Ports) : Presented :=
  if p.rst && decide (0 < L) then .reset
  else if p.reqValid then .request (decodePorts p) else .idle

/-- Ports in a cycle in which nothing is presented. Its request fields are 0 for want of a value and are ignored (R46). -/
def Ports.quiet : Ports := ⟨false, false, 0, 0, 0, 0⟩

/-- The control word of an operation, the ignored field of ShuffleBytes being 0 (R49, R52, R53). -/
def encodeCtl : Instr → CtlWord
  | .alignRight _ _ count => 0#1 ++ count
  | .shuffleBytes _ _ => 0x100

/-- The first vector operand, as it lies on `req_a` (R45). -/
def encodeA : Instr → PortVec
  | .alignRight high _ _ => Machine.flat high
  | .shuffleBytes source _ => Machine.flat source

/-- The second vector operand, as it lies on `req_b` (R45). -/
def encodeB : Instr → PortVec
  | .alignRight _ low _ => Machine.flat low
  | .shuffleBytes _ selector => Machine.flat selector

/-- The canonical request word: the control word, then `a`, then `b` (R50, R53). -/
def encodeReq (i : Instr) : ReqWord := encodeCtl i ++ (encodeA i ++ encodeB i)

/-- The ports of a cycle that presents the operation, no reset asserted (R44, R45). -/
def encodePorts (i : Instr) : Ports :=
  ⟨false, true, (encodeCtl i).extractLsb' 8 1, (encodeCtl i).extractLsb' 0 8, encodeA i, encodeB i⟩

/-- The request word that spells what the request ports carry (R50). -/
def Ports.reqWord (p : Ports) : ReqWord := p.reqOp ++ (p.reqCount ++ (p.reqA ++ p.reqB))

/-- A word of spec/opcode_table.json is a control word of 9 bits; the operand vectors have no bits in it and are 0. The table's numbering is that of R49, whatever whole number of bytes `_nbits` rounds it to. -/
def decodeTableWord (_nbits w : Nat) : Option Instr := (decodeCtlNat w 0 0).toOption

/-- The ports that present a word of the table, with both vectors 0. A control word has 9 bits (R49), and the spec says nothing of placing a wider number: one of 2^9 or more is reduced modulo 2^9 here, although `decodeTableWord` refuses it. DESIGN CHOICE, notes/assumptions/10.md. -/
def tablePorts (w : Nat) : Ports :=
  ⟨false, true, (BitVec.ofNat 9 w).extractLsb' 8 1, (BitVec.ofNat 9 w).extractLsb' 0 8, 0, 0⟩

end Sys2Proof
end

