-- ==== Sys2Proof/Machine/State.lean ====
section
/-! DEFINITION. The state of one instance. The engine's only state is the in-flight queue (R22 to R28); the response ports are outputs (R29), kept here because a step answers a state and nothing else; `input` is the requester's drive of the coming cycles, the model's own field. -/

namespace Sys2Proof.Machine

/-- A request accepted and not yet answered (R28). The queue may hold operands or the computed result, which is not observable (93 U8); this one holds the result. -/
structure Pending where
  /-- How many cycles are left before the cycle that answers it: 0 means the coming cycle. -/
  left : Nat
  /-- The response it will be given (R37, R47). -/
  result : ByteVector16
deriving DecidableEq, Repr

/-- One instance and the drive of its input ports. -/
structure State where
  /-- The model's own field: what the requester drives on the input ports, one entry per coming cycle; after the last entry nothing is presented and reset is not asserted. DESIGN CHOICE, notes/assumptions/2.md. -/
  input : List Ports
  /-- The in-flight queue, oldest first (R28). -/
  inFlight : List Pending
  /-- The response ports in the cycle just completed: `some v` is `rsp_valid` = 1 with `rsp_r` = v; `none` is `rsp_valid` = 0, when `rsp_r` has no value to read (R47, R95). -/
  rsp : Option ByteVector16
deriving DecidableEq, Repr

/-- The engine has no fault: every request yields a response (R80, R89). -/
inductive Fault where
deriving DecidableEq, Repr

/-- Why something is refused. No step of the engine refuses (R89). -/
inductive Refusal where
  /-- An operation without a meaning; no arm of `exec` answers it. Safe. -/
  | notModelled (mnemonic : String)
  /-- The requester reads `rsp_r` in a cycle in which `rsp_valid` is 0 (R95). Raised by `readResponse` and never by a step. Safe. -/
  | responseNotValid
deriving DecidableEq, Repr

/-- The instance when reset is released: the queue empty and `rsp_valid` 0 (R29, R93). Nothing is driven on the ports yet. -/
def State.reset : State := ⟨[], [], none⟩

end Sys2Proof.Machine
end

