-- ==== Sys2Proof/Machine/Ops.lean ====
section
/-! DEFINITION. The operations every step is made of: taking the ports of the coming cycle, one clock cycle of the in-flight queue, the reset cycle, and the requester's read of the response. The engine has no memory, no registers and takes no exception, so there is nothing else to share (R22, R31, R80, R84). -/

namespace Sys2Proof.Machine

/-- The ports of the coming cycle; where nothing is driven, nothing is presented. -/
def State.ports (s : State) : Ports := s.input.headD Ports.quiet

/-- The pending request one cycle later. -/
def Pending.tick (e : Pending) : Pending := { e with left := e.left - 1 }

/-- A request accepted in this cycle joins the queue behind the others, `L` cycles before its response (R28, R36, R47). -/
def enqueue (L : Nat) (entering : Option ByteVector16) (q : List Pending) : List Pending :=
  match entering with
  | some r => q ++ [⟨L, r⟩]
  | none => q

/-- The response of this cycle: the oldest pending request, if it is due. -/
def dueResponse : List Pending → Option ByteVector16
  | e :: _ => if e.left = 0 then some e.result else none
  | [] => none

/-- The queue at the end of the cycle: the answered request has left, and the others are one cycle nearer. -/
def dequeue : List Pending → List Pending
  | e :: q => if e.left = 0 then q.map Pending.tick else (e :: q).map Pending.tick
  | [] => []

/-- One clock cycle of an engine of latency `L` that accepts `entering`: the request joins the queue, and the queue answers what is due (R36, R47, R48). With `L` = 0 the request is answered in the same cycle (R91). The drive of the cycle is used up. -/
def cycle (L : Nat) (entering : Option ByteVector16) (s : State) : State :=
  { input := s.input.tail
    inFlight := dequeue (enqueue L entering s.inFlight)
    rsp := dueResponse (enqueue L entering s.inFlight) }

/-- A cycle in which reset is asserted: what is in flight is dropped, nothing is accepted and no response is valid (R83, R93, R94). DEDUCED that a response due in this very cycle is dropped too, notes/assumptions/7.md. The drive of the cycle is used up. -/
def resetCycle (s : State) : State := { input := s.input.tail, inFlight := [], rsp := none }

/-- The requester reads `rsp_r` in the cycle just completed: refused while `rsp_valid` is 0 (R95). -/
def readResponse (s : State) : Except Refusal ByteVector16 :=
  match s.rsp with
  | some v => .ok v
  | none => .error .responseNotValid

/-- The requester drives the coming cycle so that it presents a word of the table, with both vectors 0. -/
def placeWord (w : Nat) (s : State) : State := { s with input := tablePorts w :: s.input.tail }

end Sys2Proof.Machine
end

