-- ==== Sys2Proof/Machine/AlignRight.lean ====
section
/-! DEFINITION. AlignRight, the concatenate-and-shift unit (40_alignright.md). -/

namespace Sys2Proof.Machine

/-- The result lane by lane (R60). The sum of count and lane is exact, so it is never reduced (R61), and no count is special (R63). -/
def alignRight (high low : ByteVector16) (count : Count) : ByteVector16 :=
  Vector.ofFn fun i =>
    let src := count.toNat + i.val
    if hl : src ≤ 15 then low[src] else if hh : src ≤ 31 then high[src - 16] else 0

/-- The wide-shift form (R62): the low half of the 32 bytes shifted right, zeros entering at the top. The shift amount is a number, so it is not reduced. -/
def alignRightWide (high low : ByteVector16) (count : Count) : PortVec :=
  ((flat high ++ flat low : BitVec 256) >>> (8 * count.toNat)).setWidth 128

/-- An accepted AlignRight request (R47, R52, R68): its response enters the in-flight queue, whatever the operands. -/
def execAlignRight (high low : ByteVector16) (count : Count) (s : State) :
    Host.Outcome State Fault Refusal :=
  .next (cycle Config.latency (some (alignRight high low count)) s)

end Sys2Proof.Machine
end

