-- ==== Sys2Proof/Machine/Flags.lean ====
section
/-! DEFINITION. The engine has no status flag, condition code or predicate, and no operation computes one (R24). The one bit the spec calls a flag is the zeroing flag of a selector byte, which is part of an operand. -/

namespace Sys2Proof.Machine

/-- The zeroing flag of a selector byte: bit 7, equally `sel >= 0x80` read as unsigned (R11, R17, R70, R72). -/
def zeroFlag (sel : Byte) : Bool := sel.getLsbD 7

end Sys2Proof.Machine
end

