-- ==== Sys2Proof/Machine/ShuffleBytes.lean ====
section
/-! DEFINITION. ShuffleBytes, the permutation and zero-masking datapath (41_shufflebytes.md). -/

namespace Sys2Proof.Machine

/-- `sel & 0x0F` lies in 0 to 15 (R73). -/
theorem and_low_lt (sel : Byte) : (sel &&& 0x0F#8).toNat < 16 := by
  simp only [BitVec.toNat_and, BitVec.toNat_ofNat]
  exact Nat.lt_of_le_of_lt Nat.and_le_right (by decide)

/-- The index field names one of the sixteen lanes, whatever the selector byte (R73). -/
theorem laneIndex_lt (sel : Byte) : laneIndex sel < 16 := and_low_lt sel

/-- The result lane by lane (R70): zero where the selector byte's zeroing flag is set (R72), else the source lane its index field names (R71). -/
def shuffleBytes (source selector : ByteVector16) : ByteVector16 :=
  Vector.ofFn fun i =>
    if zeroFlag selector[i] then 0 else source[laneIndex selector[i]]'(laneIndex_lt _)

/-- An accepted ShuffleBytes request (R47, R53, R77): its response enters the in-flight queue, whatever the operands. -/
def execShuffleBytes (source selector : ByteVector16) (s : State) :
    Host.Outcome State Fault Refusal :=
  .next (cycle Config.latency (some (shuffleBytes source selector)) s)

end Sys2Proof.Machine
end

