-- ==== Sys2Proof/Machine/Dispatch.lean ====
section
/-! DEFINITION. The meaning of each operation, one arm per constructor. -/

namespace Sys2Proof.Machine

def exec (i : Instr) (s : State) : Host.Outcome State Fault Refusal :=
  match i with
  | .alignRight high low count => Sys2Proof.Machine.execAlignRight high low count s
  | .shuffleBytes source selector => Sys2Proof.Machine.execShuffleBytes source selector s

end Sys2Proof.Machine
end

