-- ==== Sys2Proof/Machine/Step.lean ====
section
/-! DEFINITION. One step: one clock cycle of the instance, or one presentation to a combinational one. -/

namespace Sys2Proof.Machine

/-- The ports of the coming cycle are sampled (R35, R44). A cycle without a request or with reset asserted has its own effect (R46, R94); a presented request is executed (R47, R48). -/
def step (s : State) : Host.Outcome State Fault Refusal :=
  match s.ports.presented Config.latency with
  | .reset => .next (resetCycle s)
  | .idle => .next (cycle Config.latency none s)
  | .request i => exec i s

/-- The requester presents a word of the table in the coming cycle; notes/assumptions/10.md. -/
def State.withFetchWord (s : State) (_nbits w : Nat) : State := placeWord w s

end Sys2Proof.Machine
end

