-- ==== Sys2Proof/Machine/Engine.lean ====
section
/-! DEFINITION. The engine as a function of its latency: the response to a request (R47), a cycle, a run, and what is observed in it. `stepAt` is `step` for an instance of latency `L`; an obligation says that they agree. It lets a statement speak of every latency, and a test of one. -/

namespace Sys2Proof.Machine

/-- The spec's `exec(op, count, a, b)` over port values (R47). -/
def respondTo (op : OpSelect) (count : Count) (a b : ByteVector16) : ByteVector16 :=
  if op = 0 then alignRight a b count else shuffleBytes a b

/-- The response to an operation (R47). -/
def response : Instr → ByteVector16
  | .alignRight high low count => alignRight high low count
  | .shuffleBytes source selector => shuffleBytes source selector

/-- One cycle of an instance of latency `L`. It has no outcome but a next state (R89, R90). -/
def stepAt (L : Nat) (s : State) : State :=
  match s.ports.presented L with
  | .reset => resetCycle s
  | .idle => cycle L none s
  | .request i => cycle L (some (response i)) s

/-- `n` cycles. -/
def runAt (L : Nat) : Nat → State → State
  | 0, s => s
  | n + 1, s => runAt L n (stepAt L s)

/-- The response ports in cycle `t`, the coming cycle being cycle 0. -/
def outputAt (L t : Nat) (s : State) : Option ByteVector16 := (runAt L (t + 1) s).rsp

/-- The request presented in cycle `t`, if one is. -/
def requestAt (t : Nat) (s : State) : Option Instr :=
  match s.input[t]? with
  | some p => if p.reqValid then some (decodePorts p) else none
  | none => none

/-- The responses given in `n` cycles, in order. -/
def responses (L : Nat) : Nat → State → List ByteVector16
  | 0, _ => []
  | n + 1, s => (stepAt L s).rsp.toList ++ responses L n (stepAt L s)

/-- The requests presented in the first `n` cycles, in order. -/
def requests (n : Nat) (s : State) : List Instr :=
  ((s.input.take n).filter (·.reqValid)).map decodePorts

end Sys2Proof.Machine
end

