-- ==== Sys2Proof/Machine/Instances.lean ====
section
/-! DEFINITION. Several instances side by side (R38, R39): each has its own latency, its own ports and its own in-flight queue, and there is no state beside theirs. Which instance takes a cycle next is whoever drives them to say; notes/assumptions/18.md. -/

namespace Sys2Proof.Machine

/-- An instance: its latency and its state. -/
abbrev Instance := Nat × State

/-- Instance `k` takes one cycle; a number that names no instance changes nothing. -/
def stepInstance (k : Nat) (sys : List Instance) : List Instance :=
  sys.modify k fun e => (e.1, stepAt e.1 e.2)

/-- The instances named take a cycle each, in the order of the list. -/
def stepInstances (ks : List Nat) (sys : List Instance) : List Instance :=
  ks.foldl (fun acc k => stepInstance k acc) sys

end Sys2Proof.Machine
end

