-- ==== Sys2Proof/Machine/Listing.lean ====
section
/-! DEFINITION. The text of listings and scripts (R56, R57): characters to tokens, tokens to operations and lines, and the spelling of an operation. The mnemonics, the operand order and the three forms of a vector operand are the spec's; which characters a name has, and where spaces may stand, are the model's choice, notes/assumptions/15.md. -/

namespace Sys2Proof.Machine

/-- A token of a listing. -/
inductive Token where
  | ident (s : String)
  /-- A hexadecimal number, with how many digits it was written. -/
  | hex (digits value : Nat)
  | dec (value : Nat)
  | leftParen
  | rightParen
  | leftBrace
  | rightBrace
  | comma
  | equals
deriving DecidableEq, Repr

/-- Why a text is refused. Raised by the requester's reader of text. Safe: the spec gives such a text no meaning (R56). -/
inductive ListingError where
  /-- A run of letters and digits that is neither a name nor a number, or a stray character. -/
  | badWord (s : String)
  /-- A sequence of tokens that is no operation and no line. -/
  | badForm
  /-- A number in a vector listing that is no byte (R11, R19). -/
  | notAByte (n : Nat)
  /-- A vector written with other than sixteen bytes or 32 digits (R14, R56). -/
  | notAVector
deriving DecidableEq, Repr

/-- The value of a hexadecimal digit. -/
def hexDigit (c : Char) : Option Nat :=
  if '0' ≤ c ∧ c ≤ '9' then some (c.toNat - 48)
  else if 'a' ≤ c ∧ c ≤ 'f' then some (c.toNat - 87)
  else if 'A' ≤ c ∧ c ≤ 'F' then some (c.toNat - 55)
  else none

/-- The value of a decimal digit. -/
def decDigit (c : Char) : Option Nat :=
  if '0' ≤ c ∧ c ≤ '9' then some (c.toNat - 48) else none

/-- A run of digits in a base, most significant first. -/
def digitsValue (base : Nat) (digit : Char → Option Nat) : Nat → List Char → Option Nat
  | acc, [] => some acc
  | acc, c :: cs =>
    match digit c with
    | some d => digitsValue base digit (acc * base + d) cs
    | none => none

/-- A whole word: a number in hexadecimal after `0x`, a decimal number, or a name that begins with a letter or an underscore. -/
def wordToken (w : List Char) : Except ListingError Token :=
  match w with
  | '0' :: 'x' :: d :: ds =>
    match digitsValue 16 hexDigit 0 (d :: ds) with
    | some v => .ok (.hex (ds.length + 1) v)
    | none => .error (.badWord (String.ofList w))
  | c :: _ =>
    if c.isAlpha || c == '_' then .ok (.ident (String.ofList w))
    else
      match digitsValue 10 decDigit 0 w with
      | some v => .ok (.dec v)
      | none => .error (.badWord (String.ofList w))
  | [] => .error (.badWord "")

/-- The token of a character that stands alone. Braces are written by their code. -/
def punctuation (c : Char) : Option Token :=
  if c = '(' then some .leftParen
  else if c = ')' then some .rightParen
  else if c.toNat = 123 then some .leftBrace
  else if c.toNat = 125 then some .rightBrace
  else if c = ',' then some .comma
  else if c = '=' then some .equals
  else none

/-- The tokens of a text; `word` is the run of letters and digits read so far, last character first. -/
def lexFrom : List Char → List Char → Except ListingError (List Token)
  | word, [] => if word = [] then .ok [] else do .ok [← wordToken word.reverse]
  | word, c :: cs =>
    if c.isAlphanum || c == '_' then lexFrom (c :: word) cs
    else do
      let before ← if word = [] then .ok [] else do .ok [← wordToken word.reverse]
      let here ←
        match punctuation c with
        | some t => .ok [t]
        | none => if c = ' ' then .ok [] else .error (.badWord (String.singleton c))
      let after ← lexFrom [] cs
      .ok (before ++ here ++ after)

/-- The tokens of one line of text. -/
def lex (text : List Char) : Except ListingError (List Token) := lexFrom [] text

/-- The bytes of a vector listing after its opening brace, and what follows its closing brace. -/
def parseBytes : List Token → Except ListingError (List Byte × List Token)
  | .hex _ v :: rest => parseByte v rest
  | .dec v :: rest => parseByte v rest
  | _ => .error .badForm
where
  /-- One byte read; a comma asks for a further one. -/
  parseByte (v : Nat) : List Token → Except ListingError (List Byte × List Token)
    | .rightBrace :: rest =>
      if v < 256 then .ok ([BitVec.ofNat 8 v], rest) else .error (.notAByte v)
    | .comma :: rest =>
      if v < 256 then do
        let (bs, rest') ← parseBytes rest
        .ok (BitVec.ofNat 8 v :: bs, rest')
      else .error (.notAByte v)
    | _ => .error .badForm

/-- A vector literal at the head of the tokens: a listing of sixteen bytes, lane 15 first (R19), or a flat image of 32 hexadecimal digits (R33, R56). -/
def parseLiteral : List Token → Except ListingError (ByteVector16 × List Token)
  | .leftBrace :: rest => do
    let (bs, rest') ← parseBytes rest
    match ofListing bs with
    | some v => .ok (v, rest')
    | none => .error .notAVector
  | .hex d v :: rest => if d = 32 then .ok (lanes (BitVec.ofNat 128 v), rest) else .error .notAVector
  | _ => .error .badForm

/-- A vector operand: a name or a literal (R56). -/
def parseOperand : List Token → Except ListingError (Operand × List Token)
  | .ident n :: rest => .ok (.name n, rest)
  | ts => do
    let (v, rest) ← parseLiteral ts
    .ok (.literal v, rest)

/-- A token that has to be there. -/
def expectToken (t : Token) : List Token → Except ListingError (List Token)
  | u :: rest => if u = t then .ok rest else .error .badForm
  | [] => .error .badForm

/-- A count as written, decimal or hexadecimal (R56). -/
def parseNumber : List Token → Except ListingError (Nat × List Token)
  | .dec v :: rest => .ok (v, rest)
  | .hex _ v :: rest => .ok (v, rest)
  | _ => .error .badForm

/-- A whole operation, its mnemonic spelled exactly and its operands in the source's order (R56). -/
def parseCall : List Token → Except ListingError Call
  | .ident m :: ts => do
    let ts ← expectToken .leftParen ts
    let (x, ts) ← parseOperand ts
    let ts ← expectToken .comma ts
    let (y, ts) ← parseOperand ts
    if m = "AlignRight" then do
      let ts ← expectToken .comma ts
      let (n, ts) ← parseNumber ts
      let ts ← expectToken .rightParen ts
      if ts = [] then .ok (.alignRight x y n) else .error .badForm
    else if m = "ShuffleBytes" then do
      let ts ← expectToken .rightParen ts
      if ts = [] then .ok (.shuffleBytes x y) else .error .badForm
    else .error .badForm
  | _ => .error .badForm

/-- A whole line of a script (R57). -/
def parseLine : List Token → Except ListingError Line
  | .ident n :: .equals :: .ident m :: ts => do .ok (.op n (← parseCall (.ident m :: ts)))
  | .ident n :: .equals :: ts => do
    let (v, rest) ← parseLiteral ts
    if rest = [] then .ok (.bind n v) else .error .badForm
  | _ => .error .badForm

/-- One line of text as a line of a script. -/
def readLine (text : String) : Except ListingError Line := do parseLine (← lex text.toList)

/-- One listed operation. -/
def readCall (text : String) : Except ListingError Call := do parseCall (← lex text.toList)

/-- A script, one string a line (R57). -/
def readScript : List String → Except ListingError Script
  | [] => .ok []
  | l :: ls => do .ok ((← readLine l) :: (← readScript ls))

/-- The token of a vector in the 32-digit form. -/
def vectorToken (V : ByteVector16) : Token := .hex 32 (flat V).toNat

/-- The tokens of an operation on literal operands (R56). -/
def instrTokens : Instr → List Token
  | .alignRight high low count =>
    [.ident "AlignRight", .leftParen, vectorToken high, .comma, vectorToken low, .comma,
      .dec count.toNat, .rightParen]
  | .shuffleBytes source selector =>
    [.ident "ShuffleBytes", .leftParen, vectorToken source, .comma, vectorToken selector,
      .rightParen]

/-- The operation as a listed call on literals. -/
def instrCall : Instr → Call
  | .alignRight high low count => .alignRight (.literal high) (.literal low) count.toNat
  | .shuffleBytes source selector => .shuffleBytes (.literal source) (.literal selector)

end Sys2Proof.Machine
end

