-- ==== Sys2Proof/Machine/OperandQueue.lean ====
section
/-! DEFINITION. The other in-flight queue the spec allows (R28, 93 U8): a pending request is held as its operands and the result is computed when it is answered. An obligation says that it cannot be told apart from the queue of Sys2Proof/Machine/Ops.lean. -/

namespace Sys2Proof.Machine

/-- A pending request held as its operation and operands. -/
structure Held where
  left : Nat
  instr : Instr
deriving DecidableEq, Repr

/-- The same request held as its result. -/
def Held.computed (h : Held) : Pending := ⟨h.left, response h.instr⟩

/-- The pending request one cycle later. -/
def Held.tick (h : Held) : Held := { h with left := h.left - 1 }

/-- The request of this cycle joins the queue. -/
def heldEnqueue (L : Nat) (entering : Option Instr) (q : List Held) : List Held :=
  match entering with
  | some i => q ++ [⟨L, i⟩]
  | none => q

/-- The response of this cycle, computed now. -/
def heldDue : List Held → Option ByteVector16
  | h :: _ => if h.left = 0 then some (response h.instr) else none
  | [] => none

/-- The queue at the end of the cycle. -/
def heldDequeue : List Held → List Held
  | h :: q => if h.left = 0 then q.map Held.tick else (h :: q).map Held.tick
  | [] => []

/-- The queue and the response after one cycle that accepts `entering`. -/
def heldCycle (L : Nat) (entering : Option Instr) (q : List Held) :
    List Held × Option ByteVector16 :=
  (heldDequeue (heldEnqueue L entering q), heldDue (heldEnqueue L entering q))

end Sys2Proof.Machine
end

