-- ==== Sys2Proof/Machine/Pins.lean ====
section
/-! DEFINITION. The pins of the engine (R43): how the level of the reset pin becomes the `rst` of a cycle under a reset style (R92), and what the response pins carry. No rule depends on the style; only its effect, a cycle with reset asserted, reaches the machine. -/

namespace Sys2Proof.Machine

/-- The input pins in one cycle. The reset pin is looked at twice: at the clock edge that samples the request, and at another moment of the cycle. -/
structure Pins where
  rstAtEdge : Bool
  rstBetween : Bool
  reqValid : Bool
  reqOp : OpSelect
  reqCount : Count
  reqA : PortVec
  reqB : PortVec
deriving DecidableEq, Repr

/-- Whether a pin level is the asserting one. -/
def asserting : ResetPolarity → Bool → Bool
  | .activeHigh, level => level
  | .activeLow, level => !level

/-- Whether reset is asserted in a cycle: at the edge only, or at any moment (R92). -/
def resetAsserted (style : ResetStyle) (atEdge between : Bool) : Bool :=
  match style.sampling with
  | .synchronous => asserting style.polarity atEdge
  | .asynchronous => asserting style.polarity atEdge || asserting style.polarity between

/-- The ports of a cycle, from its pins. -/
def Pins.ports (style : ResetStyle) (p : Pins) : Ports :=
  ⟨resetAsserted style p.rstAtEdge p.rstBetween, p.reqValid, p.reqOp, p.reqCount, p.reqA, p.reqB⟩

/-- The requester drives the pins of further cycles, under the instance's own style. -/
def State.drive (ps : List Pins) (s : State) : State :=
  { s with input := s.input ++ ps.map (Pins.ports Config.resetStyle) }

/-- The response pins (R43). -/
structure OutPins where
  rspValid : Bool
  rspR : PortVec
deriving DecidableEq, Repr

/-- The response pins of the cycle just completed. While `rsp_valid` is 0 the data pins carry `idle`, which is a free value: whoever states something about the pins states it for every `idle` (R95, 93 U2). -/
def State.outPins (idle : PortVec) (s : State) : OutPins :=
  match s.rsp with
  | some v => ⟨true, flat v⟩
  | none => ⟨false, idle⟩

end Sys2Proof.Machine
end

