-- ==== Sys2Proof/Machine/Script.lean ====
section
/-! DEFINITION. The script notation of the requester (R57), twice: what it means, each operation line binding its name to the response of R47; and how the requester carries it out on an instance, one transaction a line. -/

namespace Sys2Proof.Machine

/-- The bindings made so far, in order. They are the requester's and no registers of the engine (R22, R57). -/
abbrev Env := List (String × ByteVector16)

/-- The value of an operand. -/
def operandValue (env : Env) : Operand → Except ScriptError ByteVector16
  | .literal v => .ok v
  | .name n =>
    match env.lookup n with
    | some v => .ok v
    | none => .error (.unboundName n)

/-- The operation a listed call stands for (R56). -/
def callInstr (env : Env) : Call → Except ScriptError Instr
  | .alignRight x y n => do
    let high ← operandValue env x
    let low ← operandValue env y
    countCheck n
    .ok (.alignRight high low (BitVec.ofNat 8 n))
  | .shuffleBytes x y => do
    let source ← operandValue env x
    let selector ← operandValue env y
    .ok (.shuffleBytes source selector)

/-- The bindings after the lines, each operation line bound to its response. -/
def meaningFrom : Env → Script → Except ScriptError Env
  | env, [] => .ok env
  | env, .bind n v :: ls => meaningFrom (env ++ [(n, v)]) ls
  | env, .op n c :: ls => do
    let i ← callInstr env c
    meaningFrom (env ++ [(n, response i)]) ls

/-- The end state of a script: the binding of every name. One that is not well formed is refused as a whole (R57). -/
def scriptMeaning (ls : Script) : Except ScriptError Env := do
  ls.check
  meaningFrom [] ls

/-- One transaction: the requester presents the operation in the coming cycle, drives what it had planned after it, waits `L` further cycles and reads the response (R47, R99). It answers what it read and the state then. -/
def transact (L : Nat) (i : Instr) (s : State) : Except ScriptError (ByteVector16 × State) :=
  let t := runAt L (L + 1) { s with input := encodePorts i :: s.input }
  match readResponse t with
  | .ok v => .ok (v, t)
  | .error _ => .error .noResponse

/-- The lines carried out top to bottom on an instance of latency `L` (R57). -/
def runFrom (L : Nat) : Env → Script → State → Except ScriptError (Env × State)
  | env, [], s => .ok (env, s)
  | env, .bind n v :: ls, s => runFrom L (env ++ [(n, v)]) ls s
  | env, .op n c :: ls, s => do
    let i ← callInstr env c
    let (v, t) ← transact L i s
    runFrom L (env ++ [(n, v)]) ls t

/-- A script carried out on an instance of latency `L`. It is checked whole before any request is sent (R57). -/
def runScript (L : Nat) (ls : Script) (s : State) : Except ScriptError (Env × State) := do
  ls.check
  runFrom L [] ls s

end Sys2Proof.Machine
end

