-- ==== Sys2Proof/Safety.lean ====
section
/-! DEFINITION. What statements about runs are made of: the invariant of the in-flight queue, a stretch of cycles without reset, and when two instances are alike in timing. -/

namespace Sys2Proof.Machine

/-- The queue invariant of an instance of latency `L` (R28, R36, R47): each pending request is due within `L` cycles, counting the coming one, and each is due before those accepted after it. -/
abbrev State.Inv (L : Nat) (s : State) : Prop :=
  s.inFlight.Pairwise (fun e f => e.left < f.left) ∧ ∀ e ∈ s.inFlight, e.left < L

/-- No reset takes effect in the coming `n` cycles; an instance of latency 0 has no reset (R91). -/
abbrev State.NoReset (L n : Nat) (s : State) : Prop := ∀ p ∈ s.input.take n, p.rst = false ∨ L = 0

/-- Two states alike in everything but data: in which cycles requests and resets come, how far pending requests are, and whether a response is valid (R100). -/
abbrev State.SameTiming (s t : State) : Prop :=
  s.input.map (fun p => (p.rst, p.reqValid)) = t.input.map (fun p => (p.rst, p.reqValid)) ∧
    s.inFlight.map (·.left) = t.inFlight.map (·.left) ∧ s.rsp.isSome = t.rsp.isSome

/-- Everything the engine owes: the response of the cycle just completed, if valid, then the results in flight, oldest first (R36). -/
def State.owed (s : State) : List ByteVector16 := s.rsp.toList ++ s.inFlight.map (·.result)

end Sys2Proof.Machine
end

