-- ==== Sys2Proof/Certificates/Slice0/Obligations.lean ====
section
/-! DEFINITION. The statements for the provers. Each names the rule or section of spec/ it formalises. -/

open Sys2Proof Sys2Proof.Machine

/-! ## The value layer -/

/-- R19: of sixteen bytes in the order given, the k-th lands in lane 15 - k, by the listing and by Make16 alike. -/
def Obligations.FirstGivenByteIsLaneFifteen : Prop :=
  ∀ g : Fin 16 → Byte,
    ofListing (List.ofFn g) =
        some (make16 (g 0) (g 1) (g 2) (g 3) (g 4) (g 5) (g 6) (g 7) (g 8) (g 9) (g 10) (g 11)
          (g 12) (g 13) (g 14) (g 15)) ∧
      ∀ k : Fin 16,
        (make16 (g 0) (g 1) (g 2) (g 3) (g 4) (g 5) (g 6) (g 7) (g 8) (g 9) (g 10) (g 11)
          (g 12) (g 13) (g 14) (g 15))[15 - k.val] = g k

/-- R33: lane `i` occupies bits `8*i+7` down to `8*i` of the port, its bit `k` being port bit `8*i+k`, and the flat image is the sum of the lanes at their weights. -/
def Obligations.LaneOccupiesItsPortBits : Prop :=
  ∀ V : ByteVector16,
    (∀ i k : Nat, (hi : i < 16) → k < 8 → (flat V).getLsbD (8 * i + k) = V[i].getLsbD k) ∧
      (flat V).toNat = ∑ i : Fin 16, V[i].toNat * 2 ^ (8 * i.val)

/-- 00_scope.md section 7.2: `lanes` and `flat` undo each other, so the 2^128 port values and the vectors correspond one to one. -/
def Obligations.LanesAndFlatAreInverse : Prop :=
  (∀ V : ByteVector16, lanes (flat V) = V) ∧ ∀ w : PortVec, flat (lanes w) = w

/-- R20: Eq16 holds exactly when all sixteen bytes match, equally when the flat images do. -/
def Obligations.EqualityComparesAllSixteenLanes : Prop :=
  ∀ V W : ByteVector16,
    (eq16 V W = true ↔ ∀ i : Fin 16, V[i] = W[i]) ∧ (eq16 V W = true ↔ flat V = flat W)

/-! ## Encoding -/

/-- R50, R52, R53: no bit of an operation is lost between its canonical request word and back. -/
def Obligations.DecodeOfEncodeIsTheOperation : Prop :=
  ∀ i : Instr, i.wf = true → decodeReq (encodeReq i) = i

/-- R50, R53: encoding a decoded word gives the word back, but for the ignored count field of a ShuffleBytes word, which becomes 0. -/
def Obligations.EncodeOfDecodeClearsOnlyTheIgnoredField : Prop :=
  ∀ w : ReqWord,
    encodeReq (decodeReq w) =
      if w.getLsbD 264 then 1#1 ++ (0#8 ++ w.extractLsb' 0 256) else w

/-- R50: the fields of the request word and the operations they spell. -/
def Obligations.RequestWordFields : Prop :=
  ∀ w : ReqWord,
    (w.getLsbD 264 = false →
      decodeReq w = .alignRight (lanes (w.extractLsb' 128 128)) (lanes (w.extractLsb' 0 128))
        (w.extractLsb' 256 8)) ∧
    (w.getLsbD 264 = true →
      decodeReq w = .shuffleBytes (lanes (w.extractLsb' 128 128)) (lanes (w.extractLsb' 0 128)))

/-- R52, R53: the operation map. Under mask 0x100 a control word matches 0x000 and is AlignRight with its low 8 bits as count, or matches 0x100 and is ShuffleBytes, and never both. -/
def Obligations.OperationMapByMatchAndMask : Prop :=
  ∀ (c : CtlWord) (a b : PortVec),
    (c &&& 0x100 = 0x000 ∧ decodeCtl c a b = .alignRight (lanes a) (lanes b) (c.setWidth 8)) ∨
      (c &&& 0x100 = 0x100 ∧ decodeCtl c a b = .shuffleBytes (lanes a) (lanes b))

/-- R45: the first vector argument is on `req_a`, the second on `req_b`, the count on `req_count`. -/
def Obligations.OperandsArriveOnTheirPorts : Prop :=
  ∀ p : Ports,
    (p.reqOp = 0 → decodePorts p = .alignRight (lanes p.reqA) (lanes p.reqB) p.reqCount) ∧
      (p.reqOp = 1 → decodePorts p = .shuffleBytes (lanes p.reqA) (lanes p.reqB))

/-- R44, R50: the ports carry the fields of the request word in parallel, both ways. -/
def Obligations.PortsCarryTheRequestWord : Prop :=
  (∀ p : Ports, decodeReq p.reqWord = decodePorts p) ∧
    ∀ i : Instr, (encodePorts i).reqWord = encodeReq i ∧ decodePorts (encodePorts i) = i

/-- R54: every number below 2^265 is a request word that spells an operation, every number below 2^9 a control word that does, and a wider number is refused by name. -/
def Obligations.EveryWordDecodes : Prop :=
  ∀ (n : Nat) (a b : PortVec),
    (n < 2 ^ 265 → ∃ i, decodeReqNat n = .ok i) ∧
      (2 ^ 265 ≤ n → decodeReqNat n = .error .requestWordTooWide) ∧
      (n < 2 ^ 9 → ∃ i, decodeCtlNat n a b = .ok i) ∧
      (2 ^ 9 ≤ n → decodeCtlNat n a b = .error .controlWordTooWide)

/-- 95_test_vectors.md section 2.4: V36 to V41, and V42, V43 with the operands A and B of its section 0. -/
def Obligations.WordsOfTheSpecDecode : Prop :=
  (∀ a b : PortVec,
    decodeCtl 0x000 a b = .alignRight (lanes a) (lanes b) 0 ∧
      decodeCtl 0x011 a b = .alignRight (lanes a) (lanes b) 17 ∧
      decodeCtl 0x0ff a b = .alignRight (lanes a) (lanes b) 255 ∧
      decodeCtl 0x100 a b = .shuffleBytes (lanes a) (lanes b) ∧
      decodeCtl 0x1ab a b = .shuffleBytes (lanes a) (lanes b) ∧
      decodeCtl 0x1ff a b = .shuffleBytes (lanes a) (lanes b)) ∧
    decodeReq 0x0110ea678c5448c1cc6d63a0aa536b7b88a8fc00ca5fea1b7e0d9e7737132f82024 =
      .alignRight (lanes 0x0ea678c5448c1cc6d63a0aa536b7b88a)
        (lanes 0x8fc00ca5fea1b7e0d9e7737132f82024) 17 ∧
    decodeReq 0x1000ea678c5448c1cc6d63a0aa536b7b88a8fc00ca5fea1b7e0d9e7737132f82024 =
      .shuffleBytes (lanes 0x0ea678c5448c1cc6d63a0aa536b7b88a)
        (lanes 0x8fc00ca5fea1b7e0d9e7737132f82024)

/-- R78: the count field of a ShuffleBytes request changes nothing, not in the operation decoded and not in the cycle that accepts it. -/
def Obligations.ShuffleIgnoresTheCountField : Prop :=
  ∀ (L : Nat) (s : State) (p : Ports) (count : Count), p.reqOp = 1 →
    decodePorts { p with reqCount := count } = decodePorts p ∧
      stepAt L { s with input := { p with reqCount := count } :: s.input } =
        stepAt L { s with input := p :: s.input }

/-! ## AlignRight -/

/-- R60: AlignRight runs in every state and on every operand, and the response it hands to the in-flight queue has, in each lane, the byte the rule names. The sum of count and lane is a sum of numbers (R61). -/
def Obligations.AlignRightCompletesWithItsLaneRule : Prop :=
  ∀ (high low : ByteVector16) (count : Count) (s : State), ∃ V : ByteVector16,
    exec (.alignRight high low count) s = .next (cycle Config.latency (some V) s) ∧
      ∀ (i : Nat) (hi : i < 16),
        (∀ h : count.toNat + i ≤ 15, V[i] = low[count.toNat + i]) ∧
          (∀ h : 16 ≤ count.toNat + i ∧ count.toNat + i ≤ 31,
            V[i] = high[count.toNat + i - 16]) ∧
          (32 ≤ count.toNat + i → V[i] = 0)

/-- R62: the lane rule and the wide shift of the 32-byte concatenation are the same function; the shift is the quotient by 2^(8*count), taken modulo 2^128. -/
def Obligations.AlignRightIsTheWideShift : Prop :=
  ∀ (high low : ByteVector16) (count : Count),
    flat (alignRight high low count) = alignRightWide high low count ∧
      (flat (alignRight high low count)).toNat =
        (((flat high).toNat * 2 ^ 128 + (flat low).toNat) / 2 ^ (8 * count.toNat)) % 2 ^ 128

/-- R63: a count of 32 to 255 gives the all-zero vector. -/
def Obligations.AlignRightFromThirtyTwoIsZero : Prop :=
  ∀ (high low : ByteVector16) (count : Count), 32 ≤ count.toNat →
    alignRight high low count = zeroVec

/-- R64: count 0 returns `low`, count 16 returns `high`. -/
def Obligations.AlignRightCountZeroAndSixteen : Prop :=
  ∀ high low : ByteVector16, alignRight high low 0 = low ∧ alignRight high low 16 = high

/-- R65: counts 1 to 15 blend the tail of `low` with the head of `high`. -/
def Obligations.AlignRightBlendsBelowSixteen : Prop :=
  ∀ (high low : ByteVector16) (count : Count), 1 ≤ count.toNat → (hc : count.toNat ≤ 15) →
    (∀ (i : Nat) (h : i ≤ 15 - count.toNat),
        (alignRight high low count)[i] = low[count.toNat + i]) ∧
      (∀ (i : Nat) (h : 16 - count.toNat ≤ i ∧ i ≤ 15),
        (alignRight high low count)[i] = high[i - (16 - count.toNat)]) ∧
      (alignRight high low count)[15] = high[count.toNat - 1] ∧
      (alignRight high low count)[0] = low[count.toNat]

/-- R66: counts 17 to 31 return the tail of `high` below zeros, whatever `low` is. -/
def Obligations.AlignRightZeroPrefixesAboveSixteen : Prop :=
  ∀ (high low : ByteVector16) (count : Count), 17 ≤ count.toNat → (hc : count.toNat ≤ 31) →
    (∀ (i : Nat) (h : i ≤ 15 - (count.toNat - 16)),
        (alignRight high low count)[i] = high[count.toNat - 16 + i]) ∧
      (∀ (i : Nat) (h : 16 - (count.toNat - 16) ≤ i ∧ i ≤ 15),
        (alignRight high low count)[i] = 0) ∧
      ∀ low' : ByteVector16, alignRight high low count = alignRight high low' count

/-- R67: which input lane an output lane copies, if any, depends on the count and the lane alone and not on data. -/
def Obligations.AlignRightLaneCopiesOneLaneOrIsZero : Prop :=
  ∀ (count : Count) (i : Fin 16),
    (∃ k : Fin 16, ∀ high low : ByteVector16, (alignRight high low count)[i] = low[k]) ∨
      (∃ k : Fin 16, ∀ high low : ByteVector16, (alignRight high low count)[i] = high[k]) ∨
      ∀ high low : ByteVector16, (alignRight high low count)[i] = 0

/-- 40_alignright.md section 5: composition of shifts, and the fold of the upper band. -/
def Obligations.AlignRightShiftsCompose : Prop :=
  (∀ (x : ByteVector16) (m n : Count), m.toNat + n.toNat ≤ 255 →
    alignRight zeroVec (alignRight zeroVec x m) n = alignRight zeroVec x (m + n)) ∧
    ∀ (high low : ByteVector16) (c : Count), 16 ≤ c.toNat →
      alignRight high low c = alignRight zeroVec high (c - 16)

/-- 40_alignright.md section 5: over a sequence of 48 bytes cut into three vectors, AlignRight of adjacent vectors is the window that starts `n` bytes later. -/
def Obligations.AlignRightIsASlidingWindow : Prop :=
  ∀ (f : Nat → Byte) (n : Count), n.toNat ≤ 16 → ∀ i : Fin 16,
    (alignRight (Vector.ofFn fun j => f (16 + j.val)) (Vector.ofFn fun j => f j.val) n)[i] =
        f (n.toNat + i.val) ∧
      (alignRight (Vector.ofFn fun j => f (32 + j.val)) (Vector.ofFn fun j => f (16 + j.val)) n)[i]
        = f (16 + n.toNat + i.val)

/-! ## ShuffleBytes -/

/-- R70: ShuffleBytes runs in every state and on every operand, and the response it hands to the in-flight queue has, in each lane, the byte the rule names. -/
def Obligations.ShuffleBytesCompletesWithItsLaneRule : Prop :=
  ∀ (source selector : ByteVector16) (s : State), ∃ V : ByteVector16,
    exec (.shuffleBytes source selector) s = .next (cycle Config.latency (some V) s) ∧
      ∀ i : Fin 16,
        (0x80 ≤ selector[i].toNat → V[i] = 0) ∧
          ∀ _ : selector[i].toNat < 0x80,
            V[i] = source[(selector[i] &&& 0x0F).toNat]'(and_low_lt selector[i])

/-- R71: with bit 7 clear, bits 6 to 4 are ignored, so the lane copies `source[sel % 16]`, and selectors that differ only there give one result. -/
def Obligations.ShuffleIgnoresBitsSixToFour : Prop :=
  ∀ source selector : ByteVector16,
    (∀ (i : Fin 16), selector[i].toNat < 0x80 →
      (shuffleBytes source selector)[i] =
        source[selector[i].toNat % 16]'(Nat.mod_lt _ (by decide))) ∧
      ∀ selector' : ByteVector16, (∀ i : Fin 16, selector[i] &&& 0x8F = selector'[i] &&& 0x8F) →
        shuffleBytes source selector = shuffleBytes source selector'

/-- R72: bit 7 alone zeroes the lane, whatever the other bits and whatever `source` holds. -/
def Obligations.ShuffleBitSevenWins : Prop :=
  ∀ (source selector : ByteVector16) (i : Fin 16), selector[i].getLsbD 7 = true →
    (shuffleBytes source selector)[i] = 0

/-- R79: the three selector properties. -/
def Obligations.ShuffleSelectorProperties : Prop :=
  ∀ source : ByteVector16,
    (∀ selector : ByteVector16, (∀ i : Fin 16, selector[i].getLsbD 7 = true) →
      shuffleBytes source selector = zeroVec) ∧
      shuffleBytes source iota = source ∧
      ∀ (selector : ByteVector16) (i : Fin 16), selector[i].getLsbD 7 = false →
        (shuffleBytes source selector)[i] =
          source[(selector[i] &&& 0x0F).toNat]'(and_low_lt selector[i])

/-- R75: an output lane depends on its own selector byte and on at most one lane of `source`, which that byte alone names. -/
def Obligations.ShuffleLaneDependsOnItsOwnSelectorByte : Prop :=
  ∀ sel : Byte,
    (∀ (source selector : ByteVector16) (i : Fin 16), selector[i] = sel →
      (shuffleBytes source selector)[i] = 0) ∨
      ∃ k : Fin 16, ∀ (source selector : ByteVector16) (i : Fin 16), selector[i] = sel →
        (shuffleBytes source selector)[i] = source[k]

/-- R74: all output lanes may copy one source lane, so the result need not be a permutation. -/
def Obligations.ShuffleBroadcasts : Prop :=
  ∀ (source : ByteVector16) (k : Fin 16),
    shuffleBytes source (Vector.ofFn fun _ => BitVec.ofNat 8 k.val) =
      Vector.ofFn fun _ => source[k]

/-- 41_shufflebytes.md section 5: two shuffles are one, with 0x80 where the second zeroes. -/
def Obligations.ShufflesCompose : Prop :=
  ∀ source s1 s2 : ByteVector16,
    shuffleBytes (shuffleBytes source s1) s2 =
      shuffleBytes source (Vector.ofFn fun i =>
        if 0x80 ≤ s2[i].toNat then 0x80
        else s1[(s2[i] &&& 0x0F).toNat]'(and_low_lt s2[i]))

/-- 41_shufflebytes.md section 5: byte rotation, and byte shifts in both directions, come out the same through either datapath. -/
def Obligations.BothDatapathsRotateAndShiftAlike : Prop :=
  ∀ (x : ByteVector16) (n : Count),
    (n.toNat ≤ 16 →
      alignRight x x n =
        shuffleBytes x (Vector.ofFn fun i => BitVec.ofNat 8 ((i.val + n.toNat) % 16))) ∧
      alignRight zeroVec x n =
        shuffleBytes x (Vector.ofFn fun i =>
          if i.val + n.toNat ≤ 15 then BitVec.ofNat 8 (i.val + n.toNat) else 0x80) ∧
      (n.toNat ≤ 16 →
        alignRight x zeroVec (16 - n) =
          shuffleBytes x (Vector.ofFn fun i =>
            if n.toNat ≤ i.val then BitVec.ofNat 8 (i.val - n.toNat) else 0x80))

/-! ## The engine: steps, responses, reset -/

/-- R93: after reset the in-flight queue is empty and no response is valid. -/
def Obligations.ResetLeavesNothingInFlight : Prop :=
  State.reset.inFlight = [] ∧ State.reset.rsp = none

/-- R47, R48: where the coming cycle presents a request and no reset takes effect, the step is `exec` of the operation its ports decode to, in that very state; the step adds nothing around it. -/
def Obligations.StepRunsThePresentedOperation : Prop :=
  ∀ (s : State) (p : Ports) (ps : List Ports), s.input = p :: ps → p.reqValid = true →
    p.rst = false ∨ Config.latency = 0 →
    step s = exec (decodePorts p) s

/-- The table words: a step after `withFetchWord` is `exec` of what `decodeTableWord` reads. That the drive of the coming cycle is replaced is the model's choice, notes/assumptions/10.md. -/
def Obligations.StepRunsThePlacedTableWord : Prop :=
  ∀ (s : State) (nbits w : Nat) (i : Instr), decodeTableWord nbits w = some i →
    step (s.withFetchWord nbits w) = exec i (s.withFetchWord nbits w)

/-- R89: from every state a step answers a next state, never a fault and never a refusal, and that state is the one `stepAt` gives for the instance's latency. -/
def Obligations.StepIsTotal : Prop :=
  ∀ s : State, step s = .next (stepAt Config.latency s)

/-- R90: from every state any number of steps runs through. -/
def Obligations.EveryRunGoesOn : Prop :=
  ∀ (n : Nat) (s : State), Host.Core.run core n s = .next (runAt Config.latency n s)

/-- R36, R8: the frame of both operations. Whatever is executed, the drive of one cycle is used up and that of later cycles is unchanged, each result owed before is owed after, unchanged and in its place, the new response is owed last, and nothing else is. -/
def Obligations.ExecAddsOneResponseAndKeepsTheRest : Prop :=
  ∀ (i : Instr) (s : State), ∃ t : State, exec i s = .next t ∧ t.input = s.input.tail ∧
    t.owed = s.inFlight.map (·.result) ++ [response i]

/-- R47: the operation a request selects, and the cycle of its response: in an instance of any latency, from any state that meets the queue invariant, while no reset takes effect, cycle `t` shows the response to the request of cycle `t - L`, or none if that cycle presented none; before cycle `L` it shows what was in flight. -/
def Obligations.ResponseComesExactlyLatencyCyclesLater : Prop :=
  (∀ (op : OpSelect) (count : Count) (a b : PortVec),
    response (decodeFields op count a b) =
      if op = 0 then alignRight (lanes a) (lanes b) count
      else shuffleBytes (lanes a) (lanes b)) ∧
    ∀ (L t : Nat) (s : State), s.Inv L → s.NoReset L (t + 1) →
      outputAt L t s =
        if t < L then (s.inFlight.find? (fun e => e.left == t)).map (·.result)
        else (requestAt (t - L) s).map response

/-- R36: without reset, the responses given and those still in flight are, in order and without omission or repetition, those in flight at the start and those to the requests presented since; and each request is answered within `L` cycles. -/
def Obligations.ResponsesExactlyOnceInOrder : Prop :=
  ∀ (L n : Nat) (s : State), s.Inv L →
    (s.NoReset L n →
      responses L n s ++ (runAt L n s).inFlight.map (·.result) =
        s.inFlight.map (·.result) ++ (requests n s).map response) ∧
      (s.NoReset L (n + L) →
        (s.inFlight.map (·.result) ++ (requests n s).map response) <+: responses L (n + L) s)

/-- R37: the response to a request, `L` cycles after it, is the same in any two instances of that latency, whatever each holds in flight and is asked before it is due; it is the response to that request. -/
def Obligations.ResponseDependsOnItsRequestOnly : Prop :=
  ∀ (L : Nat) (s : State) (p : Ports) (ps : List Ports), s.Inv L → s.input = p :: ps →
    p.reqValid = true → s.NoReset L (L + 1) →
    outputAt L L s = some (response (decodePorts p))

/-- The queue invariant holds at reset, whatever the latency (R28, R93). -/
def Obligations.ResetMeetsTheQueueInvariant : Prop :=
  ∀ L : Nat, State.reset.Inv L

/-- R28, R36: every step keeps the queue invariant, from every state that meets it, and so does every cycle of an instance of any latency. -/
def Obligations.StepKeepsTheQueueInvariant : Prop :=
  (∀ s t : State, s.Inv Config.latency → step s = .next t → t.Inv Config.latency) ∧
    ∀ (L : Nat) (s : State), s.Inv L → (stepAt L s).Inv L

/-- R28: at most `LATENCY` requests are in flight, and none if `LATENCY` is 0. -/
def Obligations.AtMostLatencyInFlight : Prop :=
  ∀ (L : Nat) (s : State), s.Inv L → s.inFlight.length ≤ L

/-- R94: a request presented while reset is asserted is not accepted, what was in flight is dropped, and the count starts again: the responses after the reset cycle, and what is then in flight, are those to the requests presented after it. -/
def Obligations.ResetDropsWhatIsInFlight : Prop :=
  ∀ (L : Nat) (s : State) (p : Ports) (ps : List Ports), 0 < L → s.input = p :: ps →
    p.rst = true →
    (stepAt L s).inFlight = [] ∧
      ∀ n : Nat, (stepAt L s).NoReset L n →
        responses L n (stepAt L s) ++ (runAt L n (stepAt L s)).inFlight.map (·.result) =
          (requests n (stepAt L s)).map response

/-- R29, R83 and 95_test_vectors.md V48: the whole state after a cycle with reset asserted. That a response due in that very cycle is not shown is DEDUCED, notes/assumptions/7.md. -/
def Obligations.ResetCycleShowsNoResponse : Prop :=
  ∀ (L : Nat) (s : State) (p : Ports) (ps : List Ports), 0 < L → s.input = p :: ps →
    p.rst = true → stepAt L s = ⟨ps, [], none⟩

/-- R91: an engine of latency 0 holds nothing, has no reset, and shows at once the response to its present inputs. -/
def Obligations.CombinationalEngineAnswersAtOnce : Prop :=
  ∀ (s : State) (p : Ports) (ps : List Ports), s.Inv 0 → s.input = p :: ps →
    stepAt 0 s = ⟨ps, [], if p.reqValid then some (response (decodePorts p)) else none⟩

/-- R46: while `req_valid` is 0 the request fields are ignored, and the cycle adds no response. -/
def Obligations.FieldsAreIgnoredWithoutRequest : Prop :=
  ∀ (L : Nat) (s : State) (p : Ports) (ps : List Ports), s.input = p :: ps →
    p.reqValid = false →
    (p.rst = false ∨ L = 0 → stepAt L s = cycle L none s ∧
      (stepAt L s).owed = s.inFlight.map (·.result)) ∧
      ∀ (op : OpSelect) (count : Count) (a b : PortVec),
        stepAt L { s with
          input := { p with reqOp := op, reqCount := count, reqA := a, reqB := b } :: ps } =
          stepAt L s

/-- 70_reset_and_hazards.md section 4: in which cycles responses are valid does not depend on any operation, count, operand byte or result: instances alike in timing stay so for ever. -/
def Obligations.TimingIsDataIndependent : Prop :=
  ∀ (L n : Nat) (s t : State), s.SameTiming t →
    (runAt L n s).SameTiming (runAt L n t) ∧
      (outputAt L n s).isSome = (outputAt L n t).isSome

/-- R95: `rsp_r` is read only while `rsp_valid` is 1; while it is 0 the read is refused, and the data pins may carry anything. -/
def Obligations.ReadIsRefusedWhileNotValid : Prop :=
  ∀ s : State,
    (s.rsp = none → readResponse s = .error .responseNotValid ∧
      ∀ idle : PortVec, s.outPins idle = ⟨false, idle⟩) ∧
      ∀ v : ByteVector16, s.rsp = some v → readResponse s = .ok v ∧
        ∀ idle : PortVec, s.outPins idle = ⟨true, flat v⟩

/-- R92: the four reset styles. A synchronous reset looks at the level at the edge, an asynchronous one at any level of the cycle, and the polarity only inverts the level. The ports two styles make of the same pins agree in every field but `rst`, and wholly where both styles say the same of reset. The two looks at the pin are the model's, notes/assumptions/6.md. -/
def Obligations.ResetStylesDifferInThePinOnly : Prop :=
  (∀ (pol : ResetPolarity) (edge between : Bool),
    (resetAsserted ⟨.synchronous, pol⟩ edge between = asserting pol edge) ∧
      (resetAsserted ⟨.asynchronous, pol⟩ edge between =
        (asserting pol edge || asserting pol between)) ∧
      asserting .activeHigh edge = edge ∧ asserting .activeLow edge = !edge) ∧
    ∀ (style style' : ResetStyle) (p : Pins),
      (p.ports style).rst = resetAsserted style p.rstAtEdge p.rstBetween ∧
        (p.ports style').reqValid = (p.ports style).reqValid ∧
        decodePorts (p.ports style') = decodePorts (p.ports style) ∧
        p.ports style' = { p.ports style with rst := (p.ports style').rst } ∧
        (resetAsserted style' p.rstAtEdge p.rstBetween =
            resetAsserted style p.rstAtEdge p.rstBetween →
          p.ports style' = p.ports style)

/-- R28, 93 U8: a queue of operands, computed when answered, gives the response of the queue of results in each cycle, and stays its image. -/
def Obligations.QueueOfOperandsIsIndistinguishable : Prop :=
  ∀ (L : Nat) (entering : Option Instr) (q : List Held),
    (heldCycle L entering q).2 =
        dueResponse (enqueue L (entering.map response) (q.map Held.computed)) ∧
      (heldCycle L entering q).1.map Held.computed =
        dequeue (enqueue L (entering.map response) (q.map Held.computed))

/-- R38, R39: a cycle of one instance leaves the others as they are, and cycles of different instances may come in either order. -/
def Obligations.InstancesShareNothing : Prop :=
  ∀ (sys : List Instance) (j k : Nat), j ≠ k →
    (stepInstance k sys)[j]? = sys[j]? ∧
      stepInstance j (stepInstance k sys) = stepInstance k (stepInstance j sys) ∧
      (stepInstance k sys)[k]? = (sys[k]?).map fun e => (e.1, stepAt e.1 e.2)

/-! ## Listings and scripts of the requester -/

/-- R57: a script is accepted exactly when every name is bound once, every name used is bound by an earlier line, and (R56) every count fits 8 bits. -/
def Obligations.ScriptIsAcceptedExactlyWhenWellFormed : Prop :=
  ∀ ls : Script, ls.wf = true ↔
    (ls.map Line.target).Nodup ∧ (∀ l ∈ ls, l.countFits = true) ∧
      ∀ (k : Nat) (l : Line), ls[k]? = some l → ∀ n ∈ l.uses, n ∈ (ls.take k).map Line.target

/-- R57: a script that is not well formed is refused as a whole, whatever its lines before the defect. -/
def Obligations.IllFormedScriptIsRefusedWhole : Prop :=
  ∀ (L : Nat) (ls : Script) (s : State) (e : ScriptError), ls.check = .error e →
    runScript L ls s = .error e ∧ scriptMeaning ls = .error e

/-- R57, R47: carried out on an instance of any latency, from any state that meets the queue invariant with nothing else driven, a script ends with the bindings of its meaning; a well-formed one ends. -/
def Obligations.ScriptOnTheEngineHasItsMeaning : Prop :=
  ∀ (L : Nat) (ls : Script) (s : State), s.Inv L → s.input = [] →
    (runScript L ls s).map Prod.fst = scriptMeaning ls ∧
      (ls.wf = true → ∃ env, scriptMeaning ls = .ok env ∧ env.map Prod.fst = ls.map Line.target)

/-- R56: an operation written out with its mnemonic and literal operands is read back as itself; a count that does not fit is refused and not reduced. -/
def Obligations.ListingReadsBack : Prop :=
  (∀ i : Instr, parseCall (instrTokens i) = .ok (instrCall i) ∧
    callInstr [] (instrCall i) = .ok i) ∧
    ∀ (env : Env) (high low : ByteVector16) (n : Nat), 256 ≤ n →
      callInstr env (.alignRight (.literal high) (.literal low) n) = .error (.countTooLarge n)
end

