-- ==== Sys2Proof/Laws/Operands.lean ====
section
/-! SUPPORT. The lanes of each vector the model builds, said once, so that no proof unfolds a datapath. -/

namespace Sys2Proof.Machine

/-- A lane of `lanes w`. -/
@[simp] theorem lanes_lane (w : PortVec) (i : Nat) (hi : i < 16) :
    (lanes w)[i] = w.extractLsb' (8 * i) 8 := by simp [lanes]

/-- A lane of `ZERO`. -/
@[simp] theorem zeroVec_lane (i : Nat) (hi : i < 16) : zeroVec[i] = 0 := by simp [zeroVec]

/-- A lane of `IOTA`. -/
@[simp] theorem iota_lane (i : Nat) (hi : i < 16) : iota[i] = BitVec.ofNat 8 i := by simp [iota]

/-- A lane of an AlignRight result. -/
theorem alignRight_lane (high low : ByteVector16) (count : Count) (i : Nat) (hi : i < 16) :
    (alignRight high low count)[i] =
      if hl : count.toNat + i ≤ 15 then low[count.toNat + i]
      else if hh : count.toNat + i ≤ 31 then high[count.toNat + i - 16] else 0 := by
  simp [alignRight]

/-- A lane of a ShuffleBytes result. -/
theorem shuffleBytes_lane (source selector : ByteVector16) (i : Nat) (hi : i < 16) :
    (shuffleBytes source selector)[i] =
      if zeroFlag selector[i] then 0 else source[laneIndex selector[i]]'(laneIndex_lt _) := by
  simp [shuffleBytes]

/-- The zeroing flag is the comparison with 0x80 (R11). -/
theorem zeroFlag_iff (sel : Byte) : zeroFlag sel = true ↔ 128 ≤ sel.toNat := by
  revert sel; decide

/-- The index field is the selector byte modulo 16 (R71). -/
theorem laneIndex_eq_mod (sel : Byte) : laneIndex sel = sel.toNat % 16 := by
  revert sel; decide

end Sys2Proof.Machine
end

