-- ==== Sys2Proof/Laws/State.lean ====
section
/-! SUPPORT. One lemma for each field of State under each update of it, so that no proof unfolds a record update. -/

namespace Sys2Proof.Machine

@[simp] theorem reset_input : State.reset.input = [] := rfl
@[simp] theorem reset_inFlight : State.reset.inFlight = [] := rfl
@[simp] theorem reset_rsp : State.reset.rsp = none := rfl

@[simp] theorem cycle_input (L : Nat) (e : Option ByteVector16) (s : State) :
    (cycle L e s).input = s.input.tail := rfl
@[simp] theorem cycle_inFlight (L : Nat) (e : Option ByteVector16) (s : State) :
    (cycle L e s).inFlight = dequeue (enqueue L e s.inFlight) := rfl
@[simp] theorem cycle_rsp (L : Nat) (e : Option ByteVector16) (s : State) :
    (cycle L e s).rsp = dueResponse (enqueue L e s.inFlight) := rfl

@[simp] theorem resetCycle_input (s : State) : (resetCycle s).input = s.input.tail := rfl
@[simp] theorem resetCycle_inFlight (s : State) : (resetCycle s).inFlight = [] := rfl
@[simp] theorem resetCycle_rsp (s : State) : (resetCycle s).rsp = none := rfl

@[simp] theorem placeWord_input (w : Nat) (s : State) :
    (placeWord w s).input = tablePorts w :: s.input.tail := rfl
@[simp] theorem placeWord_inFlight (w : Nat) (s : State) :
    (placeWord w s).inFlight = s.inFlight := rfl
@[simp] theorem placeWord_rsp (w : Nat) (s : State) : (placeWord w s).rsp = s.rsp := rfl

@[simp] theorem drive_inFlight (ps : List Pins) (s : State) :
    (s.drive ps).inFlight = s.inFlight := rfl
@[simp] theorem drive_rsp (ps : List Pins) (s : State) : (s.drive ps).rsp = s.rsp := rfl

@[simp] theorem ports_nil (s : State) (h : s.input = []) : s.ports = Ports.quiet := by
  simp [State.ports, h]
theorem ports_cons (s : State) (p : Ports) (ps : List Ports) (h : s.input = p :: ps) :
    s.ports = p := by simp [State.ports, h]

@[simp] theorem tick_left (e : Pending) : e.tick.left = e.left - 1 := rfl
@[simp] theorem tick_result (e : Pending) : e.tick.result = e.result := rfl

@[simp] theorem enqueue_none (L : Nat) (q : List Pending) : enqueue L none q = q := rfl
@[simp] theorem enqueue_some (L : Nat) (r : ByteVector16) (q : List Pending) :
    enqueue L (some r) q = q ++ [⟨L, r⟩] := rfl

@[simp] theorem runAt_zero (L : Nat) (s : State) : runAt L 0 s = s := rfl
@[simp] theorem runAt_succ (L n : Nat) (s : State) : runAt L (n + 1) s = runAt L n (stepAt L s) := rfl

end Sys2Proof.Machine
end

