-- ==== Sys2Proof/Laws/Ops.lean ====
section
/-! SUPPORT. What each shared operation can do, said once: sampling the ports, one cycle of the queue, and a step. -/

namespace Sys2Proof.Machine

/-- What a cycle's ports amount to, one case each (R46, R48, R91, R94). -/
theorem presented_cases (L : Nat) (p : Ports) :
    (p.rst = true ∧ 0 < L ∧ p.presented L = .reset) ∨
      ((p.rst = false ∨ L = 0) ∧ p.reqValid = false ∧ p.presented L = .idle) ∨
      ((p.rst = false ∨ L = 0) ∧ p.reqValid = true ∧
        p.presented L = .request (decodePorts p)) := by
  rcases Nat.eq_zero_or_pos L with rfl | hL
  · cases hv : p.reqValid <;> simp [Ports.presented, hv]
  · have h0 : L ≠ 0 := by omega
    cases hr : p.rst <;> cases hv : p.reqValid <;> simp [Ports.presented, hr, hv, hL, h0]

/-- One cycle of the queue: the oldest request is answered and leaves if it is due, else nothing is answered; every other result stays and comes one cycle nearer. -/
theorem queue_cycle_cases (q : List Pending) :
    (q = [] ∧ dueResponse q = none ∧ dequeue q = []) ∨
      (∃ e rest, q = e :: rest ∧ e.left = 0 ∧ dueResponse q = some e.result ∧
        dequeue q = rest.map Pending.tick) ∨
      (∃ e rest, q = e :: rest ∧ e.left ≠ 0 ∧ dueResponse q = none ∧
        dequeue q = q.map Pending.tick) := by
  cases q with
  | nil => exact .inl ⟨rfl, rfl, rfl⟩
  | cons e rest =>
    by_cases h : e.left = 0
    · exact .inr (.inl ⟨e, rest, rfl, h, by simp [dueResponse, h], by simp [dequeue, h]⟩)
    · exact .inr (.inr ⟨e, rest, rfl, h, by simp [dueResponse, h], by simp [dequeue, h]⟩)

/-- A cycle of an instance, one case for each thing its ports can amount to. -/
theorem stepAt_cases (L : Nat) (s : State) :
    (s.ports.presented L = .reset ∧ stepAt L s = resetCycle s) ∨
      (s.ports.presented L = .idle ∧ stepAt L s = cycle L none s) ∨
      (∃ i, s.ports.presented L = .request i ∧
        stepAt L s = cycle L (some (response i)) s) := by
  cases h : s.ports.presented L with
  | reset => exact .inl ⟨rfl, by simp [stepAt, h]⟩
  | idle => exact .inr (.inl ⟨rfl, by simp [stepAt, h]⟩)
  | request i => exact .inr (.inr ⟨i, rfl, by simp [stepAt, h]⟩)

/-- A cycle uses up the drive of one cycle, whatever it is. -/
@[simp] theorem stepAt_input (L : Nat) (s : State) : (stepAt L s).input = s.input.tail := by
  obtain ⟨-, h⟩ | ⟨-, h⟩ | ⟨i, -, h⟩ := stepAt_cases L s <;> simp [h]

/-- The drive left after `n` cycles. -/
theorem runAt_input (L n : Nat) (s : State) : (runAt L n s).input = s.input.drop n := by
  induction n generalizing s with
  | zero => simp
  | succ n ih => simp [ih]

/-- Cycles run one after the other. -/
theorem runAt_add (L m n : Nat) (s : State) : runAt L (m + n) s = runAt L n (runAt L m s) := by
  induction m generalizing s with
  | zero => simp
  | succ m ih => rw [Nat.succ_add, runAt_succ, runAt_succ, ih]

/-- One step of a run of any machine behind the host's interface. -/
theorem run_succ (M : Host.Core) {k : Nat} {s t : M.State} (h : M.step s = .next t) :
    M.run (k + 1) s = M.run k t := by rw [Host.Core.run, h]

/-- Reading the response ports: the value while `rsp_valid` is 1, a refusal while it is 0 (R95). -/
theorem readResponse_cases (s : State) :
    (∃ v, s.rsp = some v ∧ readResponse s = .ok v) ∨
      (s.rsp = none ∧ readResponse s = .error .responseNotValid) := by
  cases h : s.rsp with
  | none => exact .inr ⟨rfl, by simp [readResponse, h]⟩
  | some v => exact .inl ⟨v, rfl, by simp [readResponse, h]⟩

end Sys2Proof.Machine
end

