-- ==== Sys2Proof/Laws/PerInstr.lean ====
section
/-! SUPPORT. Facts stated once for each operation, by constructor: the select bit of its control word is the one the operation map gives it (R49, R52, R53). -/

namespace Sys2Proof.Laws

/-- The select code of the operation map: 0 for AlignRight, 1 for ShuffleBytes. -/
def selectCode : Instr → OpSelect
  | .alignRight _ _ _ => 0
  | .shuffleBytes _ _ => 1

/-- Bit 8 of the operation's control word is its select code. -/
def SelectBit.Statement (i : Instr) : Prop := (encodeCtl i).extractLsb' 8 1 = selectCode i

theorem SelectBit.alignRight (high low : ByteVector16) (count : Count) :
    SelectBit.Statement (.alignRight high low count) := by
  simp only [SelectBit.Statement, encodeCtl, selectCode]
  revert count; decide

theorem SelectBit.shuffleBytes (source selector : ByteVector16) :
    SelectBit.Statement (.shuffleBytes source selector) := by
  simp only [SelectBit.Statement, encodeCtl, selectCode]
  decide

end Sys2Proof.Laws
end

