-- ==== Sys2Proof/Tests/Slice0.lean ====
section
/-! SUPPORT. Tests of the model. Expected values are those of spec/95_test_vectors.md or are read off the rules; each test names its source. After them stand, for every statement with hypotheses, a state and operands that meet them. -/

namespace Sys2Proof.Tests

open Sys2Proof Sys2Proof.Machine

/-- `A` of 95_test_vectors.md section 0. -/
def vecA : PortVec := 0x0ea678c5448c1cc6d63a0aa536b7b88a
/-- `B` of the same section. -/
def vecB : PortVec := 0x8fc00ca5fea1b7e0d9e7737132f82024
/-- `HI` of the same section. -/
def vecHi : PortVec := 0x1f1e1d1c1b1a19181716151413121110
/-- `IOTA` of the same section. -/
def vecIota : PortVec := 0x0f0e0d0c0b0a09080706050403020100
/-- `ONES` of the same section. -/
def vecOnes : PortVec := 0xffffffffffffffffffffffffffffffff
/-- `MIX` of the same section. -/
def vecMix : PortVec := 0x7f800f8f109000ff7e8141c12aaa0585

/-- A state in which the coming cycle presents one request and nothing is in flight. -/
def presenting (op : OpSelect) (count : Count) (a b : PortVec) : State :=
  ⟨[⟨false, true, op, count, a, b⟩], [], none⟩

/-- What a combinational instance (R91) shows for one request, as a flat image. -/
def shown (op : OpSelect) (count : Count) (a b : PortVec) : Option PortVec :=
  (stepAt 0 (presenting op count a b)).rsp.map flat

/-! ## The value layer -/

/-- V1 and the worked example of R19: lane 15 is given first. -/
theorem test_make16_order :
    (make16 0x0e 0xa6 0x78 0xc5 0x44 0x8c 0x1c 0xc6 0xd6 0x3a 0x0a 0xa5 0x36 0xb7 0xb8 0x8a)[15]
        = 0x0e ∧
      flat (make16 0x0e 0xa6 0x78 0xc5 0x44 0x8c 0x1c 0xc6 0xd6 0x3a 0x0a 0xa5 0x36 0xb7 0xb8 0x8a)
        = vecA ∧
      eq16 (lanes vecA) (lanes 0x8ab8b736a50a3ad6c61c8c44c578a60e) = false := by decide

/-- R14: a listing of fifteen bytes is no vector. -/
theorem test_listing_of_fifteen_bytes : ofListing (List.replicate 15 0) = none := by decide

/-! ## The two operations, one step each -/

/-- V2 (operand order, blend) and V19 (the source's own vector, count 17). -/
theorem test_alignRight_window :
    shown 0 5 vecHi vecIota = some 0x14131211100f0e0d0c0b0a0908070605 ∧
      shown 0 17 vecA vecB = some 0x000ea678c5448c1cc6d63a0aa536b7b8 := by decide

/-- V9 (count 31) and V14 (count 250: the index sum passes 256). -/
theorem test_alignRight_boundary :
    shown 0 31 vecHi vecIota = some 0x1f ∧ shown 0 250 vecOnes vecOnes = some 0 := by decide

/-- V21: the source's scenario, with bits 6 to 4 of five selector bytes set. -/
theorem test_shuffleBytes_scenario :
    shown 1 0 vecA vecB = some 0x0000c50000000000000036b8b7008aa5 := by decide

/-- V32 (both sides of each selector boundary), with the ignored count field set. -/
theorem test_shuffleBytes_boundary :
    shown 1 0xff vecA vecMix = some 0x0e000e008a008a00a600b8008c000a00 := by decide

/-! ## Decoding: words written out from R49 and R50 -/

/-- V37: select 0, then the eight bits of 17. -/
theorem test_decode_alignRight_word :
    decodeCtl 0b000010001 vecA vecB = .alignRight (lanes vecA) (lanes vecB) 17 := by decide

/-- V40: select 1, and a count field that is ignored; it encodes again as 0x100. -/
theorem test_decode_shuffleBytes_word :
    decodeCtl 0b110101011 vecA vecB = .shuffleBytes (lanes vecA) (lanes vecB) ∧
      encodeCtl (decodeCtl 0b110101011 vecA vecB) = 0x100 := by decide

/-- Line 3 of P1: the request word of `AlignRight(v1, v0, 5)`. -/
theorem test_decode_alignRight_request :
    decodeReq 0x0051f1e1d1c1b1a191817161514131211100f0e0d0c0b0a09080706050403020100 =
      .alignRight (lanes vecHi) (lanes vecIota) 5 := by decide

/-- Line 3 of P2: the request word of `ShuffleBytes(v0, v1)`, written by the encoder. -/
theorem test_encode_shuffleBytes_request :
    encodeReq (.shuffleBytes (lanes vecA) (lanes 0x000102030405060708090a0b0c0d0e0f)) =
      0x1000ea678c5448c1cc6d63a0aa536b7b88a000102030405060708090a0b0c0d0e0f := by decide

/-- The rows of the opcode table, and a number that is no control word. -/
theorem test_table_words :
    decodeTableWord 16 0x000 = some (.alignRight (lanes 0) (lanes 0) 0) ∧
      decodeTableWord 16 0x100 = some (.shuffleBytes (lanes 0) (lanes 0)) ∧
      decodeTableWord 16 0x200 = none := by decide

/-! ## Ill-formed terms -/

/-- Every operation is well formed (R54). -/
theorem test_instr_wf : (Instr.alignRight (lanes 0) (lanes 0) 255).wf = true := by decide

/-- V50: a count that does not fit, and the nearest one that does. -/
theorem test_wf_count :
    Script.check [.op "v" (.alignRight (.literal zeroVec) (.literal zeroVec) 256)]
        = .error (.countTooLarge 256) ∧
      Script.wf [.op "v" (.alignRight (.literal zeroVec) (.literal zeroVec) 255)] = true := by
  decide

/-- V51 and P7: an operand that no earlier line binds. -/
theorem test_wf_unbound :
    Script.check [.bind "v0" iota, .op "v1" (.alignRight (.name "v0") (.name "v9") 1)]
        = .error (.unboundName "v9") ∧
      Script.check [.bind "v0" iota, .op "v1" (.shuffleBytes (.name "v0") (.name "v2")),
        .bind "v2" iota] = .error (.unboundName "v2") := by decide

/-- V52: a name bound twice. -/
theorem test_wf_bound_twice :
    Script.check [.bind "v0" iota, .op "v0" (.shuffleBytes (.name "v0") (.name "v0"))]
        = .error (.boundTwice "v0") := by decide

/-- R56: the mnemonic is spelled exactly so, and text is read with its operands in order. -/
theorem test_listing_text :
    readLine "v2 = AlignRight(v1, v0, 0x05)" =
        .ok (.op "v2" (.alignRight (.name "v1") (.name "v0") 5)) ∧
      readCall "Alignright(v1, v0, 5)" = .error .badForm := by decide

/-- R19, R56: a brace listing is read lane 15 first, and one of fifteen bytes is refused. -/
theorem test_listing_braces :
    punctuation (Char.ofNat 123) = some .leftBrace ∧
      parseLiteral (.leftBrace :: (List.replicate 15 [Token.hex 2 0x0e, .comma]).flatten ++
        [.dec 138, .rightBrace]) = .ok (lanes 0x0e0e0e0e0e0e0e0e0e0e0e0e0e0e0e8a, []) ∧
      parseLiteral (.leftBrace :: (List.replicate 14 [Token.hex 2 0x0e, .comma]).flatten ++
        [.dec 138, .rightBrace]) = .error .notAVector := by decide

/-! ## The engine -/

/-- The requester of V48: X in cycle 0, reset in cycle 1, Y in cycle 3. -/
def resetScenario : State :=
  ⟨[encodePorts (.shuffleBytes iota zeroVec), { Ports.quiet with rst := true }, Ports.quiet,
    encodePorts (.alignRight zeroVec iota 0)], [], none⟩

/-- V48: with latency 2, X is never answered and Y is answered in cycle 5. -/
theorem test_reset_drops_request :
    ((List.range 7).map fun t => outputAt 2 t resetScenario) =
      [none, none, none, none, none, some iota, none] := by decide

/-- V49: a read while no response is valid is refused. -/
theorem test_read_while_not_valid : readResponse State.reset = .error .responseNotValid := by rfl

/-- Lines 1 and 3 of P2, carried out on an instance of latency 1. -/
theorem test_script_on_engine :
    (runScript 1 [.bind "v0" (lanes vecA), .op "v2" (.shuffleBytes (.name "v0")
        (.literal (lanes 0x000102030405060708090a0b0c0d0e0f)))] State.reset).map Prod.fst =
      .ok [("v0", lanes vecA), ("v2", lanes 0x8ab8b736a50a3ad6c61c8c44c578a60e)] := by decide

/-! ## Witnesses: for each statement with hypotheses, something that meets them all. Two instances of latency 2 serve for most. -/

/-- An operation to present. -/
def someOp : Instr := .alignRight (lanes vecHi) (lanes vecIota) 5

/-- One request in flight, due in the coming cycle, and one presented in it. -/
def busy : State := ⟨[encodePorts someOp], [⟨0, iota⟩], none⟩

/-- As `busy`, with other data. -/
def busyToo : State := ⟨[encodePorts (.shuffleBytes iota iota)], [⟨0, zeroVec⟩], none⟩

/-- Reset asserted over a request. -/
def resetPorts : Ports := { encodePorts someOp with rst := true }

theorem test_witness_DecodeOfEncodeIsTheOperation : someOp.wf = true := by decide

theorem test_witness_RequestWordFields :
    (0x0ff : ReqWord).getLsbD 264 = false ∧
      (encodeReq (.shuffleBytes iota iota)).getLsbD 264 = true := by decide

theorem test_witness_OperandsArriveOnTheirPorts :
    Ports.quiet.reqOp = 0 ∧ (encodePorts (.shuffleBytes iota iota)).reqOp = 1 := by decide

theorem test_witness_EveryWordDecodes :
    2 ^ 265 - 1 < 2 ^ 265 ∧ 2 ^ 265 ≤ 2 ^ 265 ∧ 511 < 2 ^ 9 ∧ 2 ^ 9 ≤ 512 := by norm_num

theorem test_witness_ShuffleIgnoresTheCountField :
    (encodePorts (.shuffleBytes iota iota)).reqOp = 1 := by decide

/-- Each clause at the boundaries of its range: sums 15, 16, 31, 32. -/
theorem test_witness_AlignRightCompletesWithItsLaneRule :
    (15 : Count).toNat + 0 ≤ 15 ∧ (16 ≤ (15 : Count).toNat + 1 ∧ (15 : Count).toNat + 1 ≤ 31) ∧
      (16 ≤ (16 : Count).toNat + 15 ∧ (16 : Count).toNat + 15 ≤ 31) ∧
      32 ≤ (17 : Count).toNat + 15 := by decide

theorem test_witness_AlignRightFromThirtyTwoIsZero :
    32 ≤ (32 : Count).toNat ∧ 32 ≤ (255 : Count).toNat := by decide

/-- Counts 1 and 15; at count 15 lane 0 is the last from `low` and lane 1 the first from `high`. -/
theorem test_witness_AlignRightBlendsBelowSixteen :
    (1 ≤ (1 : Count).toNat ∧ (1 : Count).toNat ≤ 15) ∧
      (1 ≤ (15 : Count).toNat ∧ (15 : Count).toNat ≤ 15) ∧ 0 ≤ 15 - (15 : Count).toNat ∧
      (16 - (15 : Count).toNat ≤ 1 ∧ 1 ≤ 15) := by decide

/-- Counts 17 and 31; at count 17 lane 14 is the last from `high` and lane 15 the first zero. -/
theorem test_witness_AlignRightZeroPrefixesAboveSixteen :
    (17 ≤ (17 : Count).toNat ∧ (17 : Count).toNat ≤ 31) ∧
      (17 ≤ (31 : Count).toNat ∧ (31 : Count).toNat ≤ 31) ∧
      14 ≤ 15 - ((17 : Count).toNat - 16) ∧
      (16 - ((17 : Count).toNat - 16) ≤ 15 ∧ 15 ≤ 15) := by decide

theorem test_witness_AlignRightShiftsCompose :
    (100 : Count).toNat + (155 : Count).toNat ≤ 255 ∧ 16 ≤ (16 : Count).toNat := by decide

theorem test_witness_AlignRightIsASlidingWindow : (16 : Count).toNat ≤ 16 := by decide

/-- Lane 15 of `MIX` is 0x7f and lane 14 is 0x80. -/
theorem test_witness_ShuffleBytesCompletesWithItsLaneRule :
    (lanes vecMix)[15].toNat < 0x80 ∧ 0x80 ≤ (lanes vecMix)[14].toNat := by decide

theorem test_witness_ShuffleIgnoresBitsSixToFour :
    (lanes vecHi)[15].toNat < 0x80 ∧ ∀ i : Fin 16, (lanes vecHi)[i] &&& 0x8F = iota[i] &&& 0x8F := by
  decide

theorem test_witness_ShuffleBitSevenWins : (lanes vecMix)[14].getLsbD 7 = true := by decide

theorem test_witness_ShuffleSelectorProperties :
    (∀ i : Fin 16, (lanes vecOnes)[i].getLsbD 7 = true) ∧ (lanes vecMix)[15].getLsbD 7 = false := by
  decide

theorem test_witness_ShuffleLaneDependsOnItsOwnSelectorByte : (lanes vecMix)[15] = 0x7f := by decide

theorem test_witness_BothDatapathsRotateAndShiftAlike : (16 : Count).toNat ≤ 16 := by decide

theorem test_witness_StepRunsThePresentedOperation :
    busy.input = [encodePorts someOp] ∧ (encodePorts someOp).reqValid = true ∧
      ((encodePorts someOp).rst = false ∨ Config.latency = 0) := ⟨rfl, rfl, .inl rfl⟩

theorem test_witness_StepRunsThePlacedTableWord :
    decodeTableWord 16 0x1ff = some (.shuffleBytes (lanes 0) (lanes 0)) := by decide

theorem test_witness_ResponseComesExactlyLatencyCyclesLater :
    busy.Inv 2 ∧ busy.NoReset 2 (2 + 1) ∧ busy.NoReset 2 (1 + 1) := by decide

theorem test_witness_ResponsesExactlyOnceInOrder : busy.Inv 2 ∧ busy.NoReset 2 (1 + 2) := by decide

theorem test_witness_ResponseDependsOnItsRequestOnly :
    busy.Inv 2 ∧ busy.input = [encodePorts someOp] ∧ (encodePorts someOp).reqValid = true ∧
      busy.NoReset 2 (2 + 1) := by decide

theorem test_witness_StepKeepsTheQueueInvariant :
    State.reset.Inv Config.latency ∧ step State.reset = .next State.reset ∧ busy.Inv 2 :=
  ⟨⟨by simp [State.reset], by simp [State.reset]⟩, rfl, by decide⟩

theorem test_witness_AtMostLatencyInFlight : busy.Inv 1 := by decide

theorem test_witness_ResetDropsWhatIsInFlight :
    0 < 2 ∧ State.input ⟨[resetPorts, encodePorts someOp], [⟨0, iota⟩], none⟩ =
        [resetPorts, encodePorts someOp] ∧ resetPorts.rst = true ∧
      (stepAt 2 ⟨[resetPorts, encodePorts someOp], [⟨0, iota⟩], none⟩).NoReset 2 3 := by decide

theorem test_witness_ResetCycleShowsNoResponse :
    0 < 2 ∧ State.input ⟨[resetPorts], [⟨0, iota⟩], none⟩ = [resetPorts] ∧
      resetPorts.rst = true := by decide

theorem test_witness_CombinationalEngineAnswersAtOnce :
    State.Inv 0 ⟨[resetPorts], [], none⟩ ∧
      State.input ⟨[resetPorts], [], none⟩ = [resetPorts] := by decide

theorem test_witness_FieldsAreIgnoredWithoutRequest :
    State.input ⟨[Ports.quiet], [⟨0, iota⟩], none⟩ = [Ports.quiet] ∧
      Ports.quiet.reqValid = false ∧ (Ports.quiet.rst = false ∨ 2 = 0) := by decide

theorem test_witness_TimingIsDataIndependent : busy.SameTiming busyToo := by decide

theorem test_witness_ReadIsRefusedWhileNotValid :
    State.reset.rsp = none ∧ (stepAt 2 busy).rsp = some iota := by decide

/-- Two different styles that say the same of reset: the pin is 1 at the edge and after it. -/
theorem test_witness_ResetStylesDifferInThePinOnly :
    resetAsserted ⟨.asynchronous, .activeHigh⟩ true true =
      resetAsserted ⟨.synchronous, .activeHigh⟩ true true := by decide

theorem test_witness_InstancesShareNothing : (0 : Nat) ≠ 1 := by decide

theorem test_witness_ScriptIsAcceptedExactlyWhenWellFormed :
    ([Line.bind "v0" iota] : Script)[0]? = some (.bind "v0" iota) := by rfl

theorem test_witness_IllFormedScriptIsRefusedWhole :
    Script.check [.bind "v0" iota, .bind "v0" iota] = .error (.boundTwice "v0") := by decide

theorem test_witness_ScriptOnTheEngineHasItsMeaning :
    State.reset.Inv 2 ∧ State.reset.input = [] ∧
      Script.wf [.bind "v0" iota, .op "v1" (.shuffleBytes (.name "v0") (.name "v0"))] = true := by
  decide

theorem test_witness_ListingReadsBack : 256 ≤ 256 := by decide

end Sys2Proof.Tests
end

section
/-! PROOFS. The family of 10_state.md: how a listing fills the lanes (R19), equality of vectors and of their flat images (R20, R33), and the bound on the in-flight queue (R28). -/

namespace Sys2Proof.Machine

/-! ## Construction (R19) -/

/-- `Make16` takes its arguments from lane 15 down. -/
theorem make16_eq_ofFn_rev (g : Fin 16 → Byte) :
    make16 (g 0) (g 1) (g 2) (g 3) (g 4) (g 5) (g 6) (g 7) (g 8) (g 9) (g 10) (g 11)
      (g 12) (g 13) (g 14) (g 15) = Vector.ofFn fun i => g i.rev := rfl

/-- A listing of sixteen values is accepted and read from its end: lane `i` is the `i`-th value from the end. -/
theorem ofListing_eq_some (l : List Byte) (h : l.length = 16) :
    ofListing l = some (Vector.ofFn fun i => l[i.rev]) := by
  rw [ofListing, dif_pos h, Option.some_inj]
  ext1 i hi
  simp [h]

/-! ## Lanes of the flat image (R33) -/

/-- The number of a list of bytes fits the bits of its lanes. -/
theorem flatNat_lt (l : List Byte) : flatNat l < 256 ^ l.length := by
  induction l with
  | nil => simp [flatNat]
  | cons b bs ih =>
    have hb := b.isLt
    rw [flatNat, List.length_cons, pow_succ]
    omega

/-- The base-256 digits of the number of a list of bytes are its bytes. -/
theorem flatNat_digit (l : List Byte) (i : Nat) (hi : i < l.length) :
    flatNat l / 256 ^ i % 256 = l[i].toNat := by
  induction l generalizing i with
  | nil => simp at hi
  | cons b bs ih =>
    have hb := b.isLt
    cases i with
    | zero => simp [flatNat]; omega
    | succ i =>
      have hrest : flatNat (b :: bs) / 256 = flatNat bs := by rw [flatNat]; omega
      rw [pow_succ', ← Nat.div_div_eq_div_mul, hrest]
      exact ih i (by simpa using hi)

/-- Nothing is lost when the lanes are placed in the 128 bits of a port. -/
theorem flat_toNat (V : ByteVector16) : (flat V).toNat = flatNat V.toList := by
  have h := flatNat_lt V.toList
  rw [flat, BitVec.toNat_ofNat, Nat.mod_eq_of_lt]
  simpa using h

/-- Bits `8*i+7` to `8*i` of the flat image are lane `i`. -/
theorem flat_extractLsb' (V : ByteVector16) (i : Nat) (hi : i < 16) :
    (flat V).extractLsb' (8 * i) 8 = V[i] := by
  apply BitVec.eq_of_toNat_eq
  have hdigit := flatNat_digit V.toList i (by simpa using hi)
  rw [BitVec.extractLsb'_toNat, flat_toNat, Nat.shiftRight_eq_div_pow, pow_mul]
  simpa using hdigit

/-- `lanes` undoes `flat`. -/
@[simp] theorem lanes_flat (V : ByteVector16) : lanes (flat V) = V := by
  ext1 i hi
  rw [lanes_lane, flat_extractLsb']

theorem flat_injective : Function.Injective flat := Function.LeftInverse.injective lanes_flat

/-! ## Equality (R20) -/

theorem eq16_iff_lanes (V W : ByteVector16) : eq16 V W = true ↔ ∀ i : Fin 16, V[i] = W[i] := by
  simp [eq16]

@[simp] theorem eq16_iff_eq (V W : ByteVector16) : eq16 V W = true ↔ V = W := by
  rw [eq16_iff_lanes]
  exact ⟨fun h => Vector.ext fun i hi => h ⟨i, hi⟩, fun h i => by rw [h]⟩

/-! ## The in-flight queue (R28) -/

/-- No two pending requests are due in the same cycle. -/
theorem State.Inv.left_nodup {L : Nat} {s : State} (h : s.Inv L) :
    (s.inFlight.map (·.left)).Nodup :=
  have ⟨hordered, _⟩ := h
  List.pairwise_map.2 (hordered.imp Nat.ne_of_lt)

/-- Each pending request is due within the coming `L` cycles. -/
theorem State.Inv.left_subset_range {L : Nat} {s : State} (h : s.Inv L) :
    s.inFlight.map (·.left) ⊆ List.range L := by
  intro n hn
  obtain ⟨-, hdue⟩ := h
  obtain ⟨e, he, rfl⟩ := List.mem_map.1 hn
  exact List.mem_range.2 (hdue e he)

end Sys2Proof.Machine

open Sys2Proof Sys2Proof.Machine

/-- Settles O4: the lanes are equal exactly when the vectors are, and `flat` is injective. -/
theorem equalityComparesAllSixteenLanes : Obligations.EqualityComparesAllSixteenLanes := fun V W =>
  ⟨eq16_iff_lanes V W, (eq16_iff_eq V W).trans flat_injective.eq_iff.symm⟩

/-- Settles O42, by counting: the pending requests are due in different cycles of the coming `L`. -/
theorem atMostLatencyInFlight : Obligations.AtMostLatencyInFlight := fun L s h => by
  have hle := (h.left_nodup.subperm h.left_subset_range).length_le
  simpa using hle

/-- Settles O1: the listing and `Make16` both fill the lanes from lane 15 down. -/
theorem firstGivenByteIsLaneFifteen : Obligations.FirstGivenByteIsLaneFifteen := by
  intro g
  rw [make16_eq_ofFn_rev, ofListing_eq_some _ List.length_ofFn]
  constructor
  · simp only [Fin.getElem_fin, List.getElem_ofFn]
  · intro k
    have hrev : (⟨15 - k.val, by omega⟩ : Fin 16).rev = k := by ext; simp; omega
    rw [Vector.getElem_ofFn, hrev]

end

section
/-! PROOFS. The family of 20_memory.md: where a lane lies in its port (R33), and the response to a request, which is that of its own operands alone (R37). -/

namespace Sys2Proof.Machine

/-! ## Lanes of the flat image (R33) -/

/-- Bit `k` of lane `i` is bit `8*i+k` of the flat image. -/
theorem flat_getLsbD (V : ByteVector16) (i k : Nat) (hi : i < 16) (hk : k < 8) :
    (flat V).getLsbD (8 * i + k) = V[i].getLsbD k := by
  rw [← flat_extractLsb' V i hi, BitVec.getLsbD_extractLsb', decide_eq_true hk, Bool.true_and]

/-- The number of a list of bytes is the sum of the bytes at their weights. -/
theorem flatNat_ofFn {n : Nat} (g : Fin n → Byte) :
    flatNat (List.ofFn g) = ∑ i : Fin n, (g i).toNat * 2 ^ (8 * i.val) := by
  induction n with
  | zero => simp [flatNat]
  | succ n ih =>
    have hweight (j : Nat) : 2 ^ (8 * (j + 1)) = 256 * 2 ^ (8 * j) := by ring
    rw [List.ofFn_succ, flatNat, ih, Fin.sum_univ_succ, Finset.mul_sum]
    simp only [Fin.val_zero, Fin.val_succ, hweight, mul_zero, pow_zero, mul_one,
      mul_left_comm (256 : Nat)]

/-- The flat image is the sum of the lanes at their weights. -/
theorem flat_toNat_eq_sum (V : ByteVector16) :
    (flat V).toNat = ∑ i : Fin 16, V[i].toNat * 2 ^ (8 * i.val) := by
  have hlist : V.toList = List.ofFn fun i : Fin 16 => V[i] := by
    rw [← Vector.toList_ofFn]
    simp only [Fin.getElem_fin, Vector.ofFn_getElem]
  rw [flat_toNat, hlist, flatNat_ofFn]

/-! ## A queue whose requests are due one after the other (R28, R36) -/

/-- Each pending request is due before those behind it. -/
abbrev DueInTurn (q : List Pending) : Prop := q.Pairwise fun e f => e.left < f.left

/-- Exactly a request due in the coming cycle is answered in it. -/
theorem dueResponse_eq_some_iff {q : List Pending} (h : DueInTurn q) (r : ByteVector16) :
    dueResponse q = some r ↔ ⟨0, r⟩ ∈ q := by
  cases q with
  | nil => simp [dueResponse]
  | cons e rest =>
    have hlater : ⟨0, r⟩ ∉ rest := fun hmem =>
      Nat.not_lt_zero _ (List.rel_of_pairwise_cons h hmem)
    obtain ⟨left, result⟩ := e
    simp [dueResponse, hlater, eq_comm]

/-- The end of a cycle takes away what was due and brings the rest one cycle nearer. -/
theorem dequeue_eq_map_filter {q : List Pending} (h : DueInTurn q) :
    dequeue q = (q.filter fun e => e.left ≠ 0).map Pending.tick := by
  cases q with
  | nil => rfl
  | cons e rest =>
    have hlater : rest.filter (fun f => f.left ≠ 0) = rest :=
      List.filter_eq_self.2 fun f hf => by
        simpa using Nat.ne_zero_of_lt (List.rel_of_pairwise_cons h hf)
    by_cases he : e.left = 0
    · rw [dequeue, if_pos he, List.filter_cons_of_neg (by simpa using he), hlater]
    · rw [dequeue, if_neg he, List.filter_cons_of_pos (by simpa using he), hlater]

/-- What is left in the queue after a cycle is what was due later, one cycle nearer. -/
theorem mem_dequeue_iff {q : List Pending} (h : DueInTurn q) (n : Nat) (r : ByteVector16) :
    ⟨n, r⟩ ∈ dequeue q ↔ ⟨n + 1, r⟩ ∈ q := by
  rw [dequeue_eq_map_filter h, List.mem_map]
  constructor
  · rintro ⟨⟨left, result⟩, hmem, htick⟩
    obtain ⟨hq, hleft⟩ := List.mem_filter.1 hmem
    obtain ⟨rfl, rfl⟩ : left - 1 = n ∧ result = r := by simpa [Pending.tick] using htick
    rwa [Nat.sub_add_cancel (Nat.one_le_iff_ne_zero.2 (by simpa using hleft))]
  · exact fun hq => ⟨⟨n + 1, r⟩, List.mem_filter.2 ⟨hq, by simp⟩, rfl⟩

/-- The end of a cycle keeps the order in which requests are due. -/
theorem DueInTurn.dequeue {q : List Pending} (h : DueInTurn q) :
    DueInTurn (dequeue q) := by
  rw [dequeue_eq_map_filter h, DueInTurn, List.pairwise_map]
  refine (h.filter _).imp_of_mem fun {e f} he _ hlt => ?_
  have hleft : e.left ≠ 0 := by simpa using (List.mem_filter.1 he).2
  simp only [tick_left]
  omega

/-! ## The queue in a state that meets the invariant -/

/-- A request that enters is due after all that are in flight. -/
theorem State.Inv.dueInTurn_enqueue {L : Nat} {s : State} (h : s.Inv L)
    (entering : Option ByteVector16) : DueInTurn (enqueue L entering s.inFlight) := by
  obtain ⟨hordered, hdue⟩ := h
  cases entering with
  | none => exact hordered
  | some r => simpa [DueInTurn, List.pairwise_append] using ⟨hordered, hdue⟩

/-- What enters does not touch what is due in fewer than `L` cycles. -/
theorem mem_enqueue_of_lt {L n : Nat} (hn : n < L) (entering : Option ByteVector16)
    (q : List Pending) (r : ByteVector16) : ⟨n, r⟩ ∈ enqueue L entering q ↔ ⟨n, r⟩ ∈ q := by
  cases entering with
  | none => rfl
  | some v => simp [Nat.ne_of_lt hn]

/-- With the request of the coming cycle, everything is due within `L` cycles after it. -/
theorem State.Inv.left_le_of_mem_enqueue {L : Nat} {s : State} (h : s.Inv L)
    {entering : Option ByteVector16} {e : Pending} (he : e ∈ enqueue L entering s.inFlight) :
    e.left ≤ L := by
  obtain ⟨-, hdue⟩ := h
  cases entering with
  | none => exact (hdue e he).le
  | some r =>
    rcases List.mem_append.1 he with hq | hnew
    · exact (hdue e hq).le
    · rw [List.mem_singleton.1 hnew]

/-- A cycle keeps the queue invariant, whatever it accepts. -/
theorem State.Inv.cycle {L : Nat} {s : State} (h : s.Inv L) (entering : Option ByteVector16) :
    (cycle L entering s).Inv L := by
  have hturn := h.dueInTurn_enqueue entering
  exact ⟨hturn.dequeue, fun e he =>
    h.left_le_of_mem_enqueue ((mem_dequeue_iff hturn e.left e.result).1 he)⟩

/-- A cycle of the engine keeps the queue invariant, whatever its ports carry. -/
theorem State.Inv.stepAt {L : Nat} {s : State} (h : s.Inv L) : (stepAt L s).Inv L := by
  obtain ⟨-, hstep⟩ | ⟨-, hstep⟩ | ⟨i, -, hstep⟩ := stepAt_cases L s
  · simp [State.Inv, hstep]
  · exact hstep ▸ h.cycle none
  · exact hstep ▸ h.cycle (some (response i))

/-! ## Cycles without reset -/

/-- The request of the coming cycle, read from its ports. -/
theorem requestAt_zero (s : State) :
    requestAt 0 s = if s.ports.reqValid then some (decodePorts s.ports) else none := by
  cases h : s.input with
  | nil => simp [requestAt, h, Ports.quiet]
  | cons p ps => simp [requestAt, h, ports_cons s p ps h]

/-- Where no reset takes effect, the cycle accepts the request presented, if there is one. -/
theorem stepAt_eq_cycle {L : Nat} {s : State} (h : s.ports.rst = false ∨ L = 0) :
    stepAt L s = cycle L ((requestAt 0 s).map response) s := by
  obtain ⟨hrst, hL, -⟩ | ⟨-, hvalid, hp⟩ | ⟨-, hvalid, hp⟩ := presented_cases L s.ports
  · simp [hrst, hL.ne'] at h
  · simp [stepAt, hp, requestAt_zero, hvalid]
  · simp [stepAt, hp, requestAt_zero, hvalid]

/-- A stretch without reset begins with a cycle without reset. -/
theorem State.NoReset.ports {L n : Nat} {s : State} (h : s.NoReset L (n + 1)) :
    s.ports.rst = false ∨ L = 0 := by
  cases hin : s.input with
  | nil => simp [ports_nil s hin, Ports.quiet]
  | cons p ps => exact ports_cons s p ps hin ▸ h p (by simp [hin])

/-- After the first cycle of a stretch without reset, the rest of it is one. -/
theorem State.NoReset.stepAt {L n : Nat} {s : State} (h : s.NoReset L (n + 1)) :
    (stepAt L s).NoReset L n := by
  intro p hp
  rw [stepAt_input, ← List.drop_one, List.take_drop, Nat.add_comm] at hp
  exact h p (List.mem_of_mem_drop hp)

/-! ## When a pending request is answered (R36, R37, R47) -/

theorem outputAt_zero (L : Nat) (s : State) : outputAt L 0 s = (stepAt L s).rsp := rfl

theorem outputAt_succ (L t : Nat) (s : State) :
    outputAt L (t + 1) s = outputAt L t (stepAt L s) := rfl

/-- Up to cycle `L` the response is the one the queue, with the request of the coming cycle in it, holds for that cycle: what is presented later is due later. -/
theorem outputAt_eq_some_iff {L t : Nat} {s : State} (hinv : s.Inv L)
    (hreset : s.NoReset L (t + 1)) (ht : t ≤ L) (r : ByteVector16) :
    outputAt L t s = some r ↔
      ⟨t, r⟩ ∈ enqueue L ((requestAt 0 s).map response) s.inFlight := by
  induction t generalizing s with
  | zero =>
    rw [outputAt_zero, stepAt_eq_cycle hreset.ports, cycle_rsp,
      dueResponse_eq_some_iff (hinv.dueInTurn_enqueue _)]
  | succ t ih =>
    rw [outputAt_succ, ih hinv.stepAt hreset.stepAt (Nat.le_of_succ_le ht), mem_enqueue_of_lt ht,
      stepAt_eq_cycle hreset.ports, cycle_inFlight, mem_dequeue_iff (hinv.dueInTurn_enqueue _)]

end Sys2Proof.Machine

open Sys2Proof Sys2Proof.Machine

/-- Settles O2: the bits lane by lane, and the weighted sum by induction on the listing. -/
theorem laneOccupiesItsPortBits : Obligations.LaneOccupiesItsPortBits := fun V =>
  ⟨flat_getLsbD V, flat_toNat_eq_sum V⟩

/-- Settles O39: the request enters the queue with `L` cycles left, and the queue answers it then. -/
theorem responseDependsOnItsRequestOnly : Obligations.ResponseDependsOnItsRequestOnly := by
  intro L s p ps hinv hin hvalid hreset
  have hreq : requestAt 0 s = some (decodePorts p) := by simp [requestAt, hin, hvalid]
  rw [outputAt_eq_some_iff hinv hreset le_rfl, hreq]
  simp

end

section
/-! PROOFS. The family of 30_encoding.md: the operation a request selects and its operands (R45, R47, R50, R52, R53), the cycle of its response (R47), and a cycle in which `req_valid` is 0 (R46). -/

namespace Sys2Proof

/-! ## Decoding (R45, R47, R50, R52, R53) -/

/-- Select 0 is AlignRight (R52). -/
theorem decodeFields_zero (count : Count) (a b : PortVec) :
    decodeFields 0 count a b = .alignRight (Machine.lanes a) (Machine.lanes b) count := rfl

/-- Select 1 is ShuffleBytes, whatever the count field holds (R53). -/
theorem decodeFields_one (count : Count) (a b : PortVec) :
    decodeFields 1 count a b = .shuffleBytes (Machine.lanes a) (Machine.lanes b) := rfl

/-- A select taken from a longer word is the bit there. -/
theorem extractLsb'_one_eq_ofBool {n : Nat} (w : BitVec n) (i : Nat) :
    w.extractLsb' i 1 = BitVec.ofBool (w.getLsbD i) := by
  rw [BitVec.getLsbD_eq_extractLsb']
  rcases BitVec.eq_zero_or_eq_one (w.extractLsb' i 1) with h | h <;> rw [h] <;> rfl

/-- Bit 264 of a request word selects the operation (R50). -/
theorem decodeReq_eq_ite (w : ReqWord) :
    decodeReq w =
      if w.getLsbD 264 then
        .shuffleBytes (Machine.lanes (w.extractLsb' 128 128)) (Machine.lanes (w.extractLsb' 0 128))
      else
        .alignRight (Machine.lanes (w.extractLsb' 128 128)) (Machine.lanes (w.extractLsb' 0 128))
          (w.extractLsb' 256 8) := by
  rw [decodeReq, extractLsb'_one_eq_ofBool]
  cases w.getLsbD 264 with
  | false => exact decodeFields_zero ..
  | true => exact decodeFields_one ..

/-- Bit 8 of a control word selects the operation (R49). -/
theorem decodeCtl_eq_ite (c : CtlWord) (a b : PortVec) :
    decodeCtl c a b =
      if c.getLsbD 8 then .shuffleBytes (Machine.lanes a) (Machine.lanes b)
      else .alignRight (Machine.lanes a) (Machine.lanes b) (c.extractLsb' 0 8) := by
  rw [decodeCtl, extractLsb'_one_eq_ofBool]
  cases c.getLsbD 8 with
  | false => exact decodeFields_zero ..
  | true => exact decodeFields_one ..

/-- The mask of the operation map keeps the select bit (R52, R53). -/
theorem ctl_and_mask (c : CtlWord) : c &&& 0x100 = if c.getLsbD 8 then 0x100 else 0x000 :=
  BitVec.and_twoPow c 8

/-- While `req_valid` is 0 a cycle's ports amount to what their `rst` says (R46). -/
theorem Ports.presented_congr_of_not_valid (L : Nat) {p q : Ports} (hp : p.reqValid = false)
    (hq : q.reqValid = false) (hrst : p.rst = q.rst) : p.presented L = q.presented L := by
  simp [Ports.presented, hp, hq, hrst]

end Sys2Proof

namespace Sys2Proof.Machine

/-- The response of R47 to port values. -/
theorem response_decodeFields (op : OpSelect) (count : Count) (a b : PortVec) :
    response (decodeFields op count a b) =
      if op = 0 then alignRight (lanes a) (lanes b) count
      else shuffleBytes (lanes a) (lanes b) := by
  rcases BitVec.eq_zero_or_eq_one op with rfl | rfl <;> rfl

/-! ## The cycle of a response (R47) -/

/-- Looking for what is due in cycle `t` finds exactly the result the queue holds for it. -/
theorem DueInTurn.find?_result_eq_some_iff {q : List Pending} (h : DueInTurn q) (t : Nat)
    (r : ByteVector16) :
    (q.find? fun e => e.left == t).map (·.result) = some r ↔ ⟨t, r⟩ ∈ q := by
  induction q with
  | nil => simp
  | cons e rest ih =>
    obtain ⟨left, result⟩ := e
    by_cases he : left = t
    · subst he
      have hlater : ⟨left, r⟩ ∉ rest := fun hmem =>
        Nat.lt_irrefl left (List.rel_of_pairwise_cons h hmem)
      simp [hlater, eq_comm]
    · rw [List.find?_cons_of_neg (by simpa using he), ih h.of_cons]
      simp [Ne.symm he]

/-- Before cycle `L` the responses are those to the requests in flight. -/
theorem outputAt_of_lt {L t : Nat} {s : State} (hinv : s.Inv L) (hreset : s.NoReset L (t + 1))
    (ht : t < L) :
    outputAt L t s = (s.inFlight.find? fun e => e.left == t).map (·.result) := by
  have ⟨hturn, _⟩ := hinv
  ext r
  rw [outputAt_eq_some_iff hinv hreset ht.le, mem_enqueue_of_lt ht,
    DueInTurn.find?_result_eq_some_iff hturn]

/-- Cycle `L` shows the response to the request of the coming cycle, if there is one. -/
theorem outputAt_latency {L : Nat} {s : State} (hinv : s.Inv L) (hreset : s.NoReset L (L + 1)) :
    outputAt L L s = (requestAt 0 s).map response := by
  have ⟨_, hdue⟩ := hinv
  have hold (r : ByteVector16) : ⟨L, r⟩ ∉ s.inFlight := fun hmem => Nat.lt_irrefl L (hdue _ hmem)
  ext r
  rw [outputAt_eq_some_iff hinv hreset le_rfl]
  cases (requestAt 0 s).map response with
  | none => simp [hold]
  | some v => simp [hold, eq_comm]

/-- The request of a later cycle, seen from one cycle on. -/
theorem requestAt_succ (L t : Nat) (s : State) :
    requestAt (t + 1) s = requestAt t (stepAt L s) := by
  rw [requestAt, requestAt, stepAt_input, List.getElem?_tail]

/-- Cycle `k + L` shows the response to the request of cycle `k`, if there is one. -/
theorem outputAt_add_latency {L k : Nat} {s : State} (hinv : s.Inv L)
    (hreset : s.NoReset L (k + L + 1)) :
    outputAt L (k + L) s = (requestAt k s).map response := by
  induction k generalizing s with
  | zero =>
    rw [Nat.zero_add] at hreset ⊢
    exact outputAt_latency hinv hreset
  | succ k ih =>
    rw [Nat.succ_add] at hreset ⊢
    rw [outputAt_succ, requestAt_succ L, ih hinv.stepAt hreset.stepAt]

/-! ## A cycle without a request (R46) -/

/-- Nothing is presented in a cycle in which `req_valid` is 0. -/
theorem requestAt_zero_of_not_valid {s : State} (h : s.ports.reqValid = false) :
    requestAt 0 s = none := by simp [requestAt_zero, h]

/-- One cycle nearer, a request keeps its result. -/
theorem map_tick_map_result (q : List Pending) :
    (q.map Pending.tick).map (·.result) = q.map (·.result) := by simp [Function.comp_def]

/-- One cycle of the queue answers or keeps each result, in order (R36). -/
theorem dueResponse_append_dequeue (q : List Pending) :
    (dueResponse q).toList ++ (dequeue q).map (·.result) = q.map (·.result) := by
  obtain ⟨rfl, -, -⟩ | ⟨e, rest, rfl, -, hdue, hrest⟩ | ⟨e, rest, -, -, hdue, hrest⟩ :=
    queue_cycle_cases q
  · rfl
  · rw [hdue, hrest, map_tick_map_result]; rfl
  · rw [hdue, hrest, map_tick_map_result]; rfl

/-- After a cycle the engine owes what was in flight and what entered, in order (R36). -/
theorem cycle_owed (L : Nat) (entering : Option ByteVector16) (s : State) :
    (cycle L entering s).owed = (enqueue L entering s.inFlight).map (·.result) :=
  dueResponse_append_dequeue _

/-- A cycle reads no more of the state than what its ports amount to, the drive after it and the queue. -/
theorem stepAt_congr {L : Nat} {s t : State}
    (hports : s.ports.presented L = t.ports.presented L) (hinput : s.input.tail = t.input.tail)
    (hqueue : s.inFlight = t.inFlight) : stepAt L s = stepAt L t := by
  simp only [stepAt, hports, cycle, resetCycle, hinput, hqueue]

end Sys2Proof.Machine

open Sys2Proof Sys2Proof.Machine

/-- Settles O37: the queue holds what is due before cycle `L`, and from then on the request of cycle `t - L` is the one due, by induction on the cycle. -/
theorem responseComesExactlyLatencyCyclesLater :
    Obligations.ResponseComesExactlyLatencyCyclesLater := by
  refine ⟨response_decodeFields, fun L t s hinv hreset => ?_⟩
  by_cases ht : t < L
  · rw [if_pos ht, outputAt_of_lt hinv hreset ht]
  · obtain ⟨k, rfl⟩ := Nat.exists_eq_add_of_le' (Nat.le_of_not_lt ht)
    rw [if_neg ht, Nat.add_sub_cancel, outputAt_add_latency hinv hreset]

/-- Settles O8: the mask and the decoder both look at bit 8. -/
theorem operationMapByMatchAndMask : Obligations.OperationMapByMatchAndMask := by
  intro c a b
  rw [ctl_and_mask, decodeCtl_eq_ite]
  cases c.getLsbD 8 with
  | false => exact .inl ⟨rfl, by rw [BitVec.setWidth_eq_extractLsb' (by decide)]; rfl⟩
  | true => exact .inr ⟨rfl, rfl⟩

/-- Settles O7: bit 264 is the select, and the other fields are read where they lie. -/
theorem requestWordFields : Obligations.RequestWordFields := fun w =>
  ⟨fun h => by rw [decodeReq_eq_ite, h]; rfl, fun h => by rw [decodeReq_eq_ite, h]; rfl⟩

/-- Settles O9: by the two equations of the decoder of fields. -/
theorem operandsArriveOnTheirPorts : Obligations.OperandsArriveOnTheirPorts := fun p =>
  ⟨fun h => by rw [decodePorts, h, decodeFields_zero],
    fun h => by rw [decodePorts, h, decodeFields_one]⟩

/-- Settles O46: nothing enters the queue, and what the ports amount to is settled by `rst` alone. -/
theorem fieldsAreIgnoredWithoutRequest : Obligations.FieldsAreIgnoredWithoutRequest := by
  intro L s p ps hin hvalid
  have hports := ports_cons s p ps hin
  constructor
  · intro hrst
    have hstep : stepAt L s = cycle L none s := by
      rw [stepAt_eq_cycle (hports ▸ hrst), requestAt_zero_of_not_valid (hports ▸ hvalid),
        Option.map_none]
    exact ⟨hstep, by rw [hstep, cycle_owed, enqueue_none]⟩
  · intro op count a b
    refine stepAt_congr ?_ (by rw [hin]; rfl) rfl
    rw [hports]
    exact Ports.presented_congr_of_not_valid L hvalid hvalid rfl

end

section
/-! PROOFS. The family of 40_alignright.md: the byte AlignRight puts in a lane, band by band of the sum of count and lane (R60), and its form as a wide shift (R62). -/

namespace Sys2Proof.Machine

/-! ## The three bands of a lane (R60) -/

/-- Sums up to 15 name a lane of `low`. -/
theorem alignRight_lane_eq_low (high low : ByteVector16) {count : Count} {i : Nat}
    (h : count.toNat + i ≤ 15) : (alignRight high low count)[i] = low[count.toNat + i] := by
  rw [alignRight_lane, dif_pos h]

/-- Sums from 16 to 31 name a lane of `high`. -/
theorem alignRight_lane_eq_high (high low : ByteVector16) {count : Count} {i : Nat} (hi : i < 16)
    (h : 16 ≤ count.toNat + i ∧ count.toNat + i ≤ 31) :
    (alignRight high low count)[i] = high[count.toNat + i - 16] := by
  obtain ⟨hlow, hhigh⟩ := h
  rw [alignRight_lane, dif_neg (by omega), dif_pos hhigh]

/-- Sums from 32 name no byte. -/
theorem alignRight_lane_eq_zero (high low : ByteVector16) {count : Count} {i : Nat} (hi : i < 16)
    (h : 32 ≤ count.toNat + i) : (alignRight high low count)[i] = 0 := by
  rw [alignRight_lane, dif_neg (by omega), dif_neg (by omega)]

/-- From count 16 on, `low` plays no part (R64, R66). -/
theorem alignRight_congr_low (high low low' : ByteVector16) {count : Count}
    (h : 16 ≤ count.toNat) : alignRight high low count = alignRight high low' count := by
  ext1 i hi
  have hlow : ¬ count.toNat + i ≤ 15 := by omega
  rw [alignRight_lane, alignRight_lane, dif_neg hlow, dif_neg hlow]

/-! ## The wide shift (R62) -/

/-- The 32 bytes with `low` below `high` hold the lanes of `low`, then those of `high`, then zeros: bit `k` of byte `src`. -/
theorem getLsbD_flat_append_flat (high low : ByteVector16) (src k : Nat) (hk : k < 8) :
    (flat high ++ flat low).getLsbD (8 * src + k) =
      (if hl : src ≤ 15 then low[src] else if hh : src ≤ 31 then high[src - 16]
        else 0).getLsbD k := by
  have hlow : 8 * src + k < 128 ↔ src ≤ 15 := by omega
  rw [BitVec.getLsbD_append, if_congr hlow rfl rfl]
  split_ifs with hl hh
  · exact flat_getLsbD low src k (by omega) hk
  · have hbit : 8 * src + k - 128 = 8 * (src - 16) + k := by omega
    rw [hbit]
    exact flat_getLsbD high (src - 16) k (by omega) hk
  · rw [BitVec.getLsbD_of_ge _ _ (by omega)]
    exact BitVec.getLsbD_zero.symm

/-- The flat image of the lane rule is the wide shift: a shift by `count` bytes brings byte `count + i` to lane `i`. -/
theorem flat_alignRight (high low : ByteVector16) (count : Count) :
    flat (alignRight high low count) = alignRightWide high low count := by
  apply BitVec.eq_of_getLsbD_eq
  intro j hj
  obtain ⟨i, k, hi, hk, rfl⟩ : ∃ i k, i < 16 ∧ k < 8 ∧ j = 8 * i + k :=
    ⟨j / 8, j % 8, by omega, by omega, by omega⟩
  have hsum : 8 * count.toNat + (8 * i + k) = 8 * (count.toNat + i) + k := by omega
  rw [flat_getLsbD _ i k hi hk, alignRight_lane, alignRightWide, BitVec.getLsbD_setWidth,
    decide_eq_true hj, Bool.true_and, BitVec.getLsbD_ushiftRight, hsum,
    getLsbD_flat_append_flat _ _ _ _ hk]

/-- The wide shift as a quotient: the shift amount and the concatenation are reduced nowhere. -/
theorem alignRightWide_toNat (high low : ByteVector16) (count : Count) :
    (alignRightWide high low count).toNat =
      (((flat high).toNat * 2 ^ 128 + (flat low).toNat) / 2 ^ (8 * count.toNat)) % 2 ^ 128 := by
  rw [alignRightWide, BitVec.toNat_setWidth, BitVec.toNat_ushiftRight, BitVec.toNat_append,
    ← Nat.shiftLeft_add_eq_or_of_lt (flat low).isLt, Nat.shiftLeft_eq, Nat.shiftRight_eq_div_pow]

end Sys2Proof.Machine

open Sys2Proof Sys2Proof.Machine

/-- Settles O14: AlignRight has one outcome in every state, and its response meets the three bands. -/
theorem alignRightCompletesWithItsLaneRule : Obligations.AlignRightCompletesWithItsLaneRule :=
  fun high low count _ => ⟨alignRight high low count, rfl, fun _ hi =>
    ⟨alignRight_lane_eq_low high low, alignRight_lane_eq_high high low hi,
      alignRight_lane_eq_zero high low hi⟩⟩

/-- Settles O15: bit by bit, and then as a quotient. -/
theorem alignRightIsTheWideShift : Obligations.AlignRightIsTheWideShift := fun high low count =>
  ⟨flat_alignRight high low count, by rw [flat_alignRight, alignRightWide_toNat]⟩

/-- Settles O18: sums up to 15 name lanes of `low`, the others lanes of `high` below its lane `count`. -/
theorem alignRightBlendsBelowSixteen : Obligations.AlignRightBlendsBelowSixteen := by
  intro high low count hpos hc
  have hhead (i : Nat) (h : 16 - count.toNat ≤ i ∧ i ≤ 15) :
      (alignRight high low count)[i] = high[i - (16 - count.toNat)] := by
    rw [alignRight_lane_eq_high high low (by omega) (by omega)]
    congr 1
    omega
  refine ⟨fun i h => alignRight_lane_eq_low high low (by omega), hhead, ?_, ?_⟩
  · rw [hhead 15 (by omega)]
    congr 1
    omega
  · exact alignRight_lane_eq_low high low (by omega)

/-- Settles O19: every sum is past `low`, and those past `high` are in the top lanes. -/
theorem alignRightZeroPrefixesAboveSixteen : Obligations.AlignRightZeroPrefixesAboveSixteen := by
  intro high low count hc _
  refine ⟨fun i h => ?_, fun i h => alignRight_lane_eq_zero high low (by omega) (by omega),
    fun low' => alignRight_congr_low high low low' (by omega)⟩
  rw [alignRight_lane_eq_high high low (by omega) (by omega)]
  congr 1
  omega

/-- Settles O16: the count alone puts every sum past both vectors. -/
theorem alignRightFromThirtyTwoIsZero : Obligations.AlignRightFromThirtyTwoIsZero := by
  intro high low count hc
  ext1 i hi
  rw [alignRight_lane_eq_zero high low hi (by omega), zeroVec_lane]

/-- Settles O17: with count 0 each lane is the same lane of `low`, with count 16 that of `high`. -/
theorem alignRightCountZeroAndSixteen : Obligations.AlignRightCountZeroAndSixteen := by
  intro high low
  constructor
  · ext1 i hi
    have hsum : (0 : Count).toNat + i = i := Nat.zero_add i
    rw [alignRight_lane_eq_low high low (by omega)]
    simp only [hsum]
  · ext1 i hi
    have hsum : (16 : Count).toNat + i = 16 + i := rfl
    rw [alignRight_lane_eq_high high low hi (by omega)]
    simp only [hsum, Nat.add_sub_cancel_left]

end

section
/-! PROOFS. The family of 41_shufflebytes.md: the two cases of a lane (R70), the bits of a selector byte that count (R71, R72), the selector properties (R79), and the ignored count field (R78). -/

namespace Sys2Proof.Machine

/-! ## The two cases of a lane (R70) -/

/-- A set zeroing flag zeroes the lane, whatever the index field holds (R72). -/
theorem shuffleBytes_lane_eq_zero (source : ByteVector16) {selector : ByteVector16} {i : Nat}
    (hi : i < 16) (h : zeroFlag selector[i] = true) : (shuffleBytes source selector)[i] = 0 := by
  rw [shuffleBytes_lane, if_pos h]

/-- A clear zeroing flag copies the source lane of the index field (R71). -/
theorem shuffleBytes_lane_eq_source (source : ByteVector16) {selector : ByteVector16} {i : Nat}
    (hi : i < 16) (h : zeroFlag selector[i] = false) :
    (shuffleBytes source selector)[i] = source[laneIndex selector[i]]'(laneIndex_lt _) := by
  rw [shuffleBytes_lane, if_neg (Bool.eq_false_iff.1 h)]

/-- The zeroing flag is clear below 0x80 (R11). -/
theorem zeroFlag_eq_false_iff (sel : Byte) : zeroFlag sel = false ↔ sel.toNat < 128 := by
  rw [← Bool.not_eq_true, zeroFlag_iff, Nat.not_le]

/-! ## The bits of a selector byte that count (R71) -/

/-- Clearing bits 6 to 4 keeps the zeroing flag. -/
theorem zeroFlag_and_mask (sel : Byte) : zeroFlag (sel &&& 0x8F) = zeroFlag sel := by
  have hmask : (0x8F : Byte).getLsbD 7 = true := rfl
  rw [zeroFlag, zeroFlag, BitVec.getLsbD_and, hmask, Bool.and_true]

/-- Clearing bits 6 to 4 keeps the index field. -/
theorem laneIndex_and_mask (sel : Byte) : laneIndex (sel &&& 0x8F) = laneIndex sel := by
  rw [laneIndex, laneIndex, BitVec.and_assoc]
  rfl

/-- Clearing bits 6 to 4 of every selector byte keeps the result. -/
theorem shuffleBytes_map_and_mask (source selector : ByteVector16) :
    shuffleBytes source (selector.map (· &&& 0x8F)) = shuffleBytes source selector := by
  ext1 i hi
  rw [shuffleBytes_lane, shuffleBytes_lane]
  simp only [Vector.getElem_map, zeroFlag_and_mask, laneIndex_and_mask]

/-! ## The selector `IOTA` (R79) -/

theorem zeroFlag_iota_lane {i : Nat} (hi : i < 16) : zeroFlag iota[i] = false := by
  rw [zeroFlag_eq_false_iff, iota_lane, BitVec.toNat_ofNat]
  omega

theorem laneIndex_iota_lane {i : Nat} (hi : i < 16) : laneIndex iota[i] = i := by
  rw [laneIndex_eq_mod, iota_lane, BitVec.toNat_ofNat]
  omega

/-- `IOTA` selects each lane for itself. -/
theorem shuffleBytes_iota (source : ByteVector16) : shuffleBytes source iota = source := by
  ext1 i hi
  rw [shuffleBytes_lane_eq_source source hi (zeroFlag_iota_lane hi)]
  simp only [laneIndex_iota_lane hi]

/-! ## The count field (R78) -/

/-- With select 1 the decoder does not look at the count. -/
theorem decodePorts_count_of_shuffle {p : Ports} (h : p.reqOp = 1) (count : Count) :
    decodePorts { p with reqCount := count } = decodePorts p := by
  rw [decodePorts, decodePorts, h, decodeFields_one, decodeFields_one]

/-- With select 1 the ports amount to the same for every count. -/
theorem presented_count_of_shuffle (L : Nat) {p : Ports} (h : p.reqOp = 1) (count : Count) :
    ({ p with reqCount := count } : Ports).presented L = p.presented L := by
  rw [Ports.presented, Ports.presented, decodePorts_count_of_shuffle h]

end Sys2Proof.Machine

open Sys2Proof Sys2Proof.Machine

/-- Settles O23: ShuffleBytes has one outcome in every state, and the zeroing flag decides each lane of its response. -/
theorem shuffleBytesCompletesWithItsLaneRule : Obligations.ShuffleBytesCompletesWithItsLaneRule :=
  fun source selector _ => ⟨shuffleBytes source selector, rfl, fun i =>
    ⟨fun h => shuffleBytes_lane_eq_zero source i.isLt ((zeroFlag_iff _).2 h),
      fun h => shuffleBytes_lane_eq_source source i.isLt ((zeroFlag_eq_false_iff _).2 h)⟩⟩

/-- Settles O24: the index field is the remainder modulo 16, and selectors with equal masked bytes have the result of their masked selector. -/
theorem shuffleIgnoresBitsSixToFour : Obligations.ShuffleIgnoresBitsSixToFour := by
  intro source selector
  constructor
  · intro i h
    have hlane := shuffleBytes_lane_eq_source source i.isLt ((zeroFlag_eq_false_iff _).2 h)
    simpa only [laneIndex_eq_mod, Fin.getElem_fin] using hlane
  · intro selector' h
    have hmasked : selector.map (· &&& 0x8F) = selector'.map (· &&& 0x8F) := by
      ext1 i hi
      simpa only [Vector.getElem_map, Fin.getElem_fin] using h ⟨i, hi⟩
    rw [← shuffleBytes_map_and_mask source selector, hmasked, shuffleBytes_map_and_mask]

/-- Settles O26: lane by lane, by the zeroing flag. -/
theorem shuffleSelectorProperties : Obligations.ShuffleSelectorProperties := by
  refine fun source => ⟨fun selector h => ?_, shuffleBytes_iota source,
    fun selector i h => shuffleBytes_lane_eq_source source i.isLt h⟩
  ext1 i hi
  rw [shuffleBytes_lane_eq_zero source hi (h ⟨i, hi⟩), zeroVec_lane]

/-- Settles O13: a cycle sees the ports only through what they amount to. -/
theorem shuffleIgnoresTheCountField : Obligations.ShuffleIgnoresTheCountField :=
  fun L _ _ count h =>
    ⟨decodePorts_count_of_shuffle h count,
      stepAt_congr (presented_count_of_shuffle L h count) rfl rfl⟩

/-- Settles O25: bit 7 is the zeroing flag. -/
theorem shuffleBitSevenWins : Obligations.ShuffleBitSevenWins := fun source _ i h =>
  shuffleBytes_lane_eq_zero source i.isLt h

end

section
/-! PROOFS. The family of 60_exceptions.md: executing an operation and every step answer a next state (R89), so every run goes on (R90). -/

namespace Sys2Proof.Machine

/-- Executing an operation is the cycle in which its response enters the queue, whichever operation it is (R47, R80). -/
theorem exec_eq_next_cycle (i : Instr) (s : State) :
    exec i s = .next (cycle Config.latency (some (response i)) s) := by
  cases i with
  | alignRight high low count => rfl
  | shuffleBytes source selector => rfl

/-- The step of the machine is the cycle of an instance of its latency, whatever the ports amount to (R89). -/
theorem step_eq_next_stepAt (s : State) : step s = .next (stepAt Config.latency s) := by
  obtain ⟨hports, hcycle⟩ | ⟨hports, hcycle⟩ | ⟨i, hports, hcycle⟩ :=
    stepAt_cases Config.latency s
  · simp only [step, hports, hcycle]
  · simp only [step, hports, hcycle]
  · simp only [step, hports, hcycle, exec_eq_next_cycle]

end Sys2Proof.Machine

open Sys2Proof Sys2Proof.Machine

/-- Settles O34, by the three things the ports of a cycle can amount to. -/
theorem stepIsTotal : Obligations.StepIsTotal := step_eq_next_stepAt

/-- Settles O35, by induction on the number of steps: the first of them answers a next state, and the rest run on from there. -/
theorem everyRunGoesOn : Obligations.EveryRunGoesOn := by
  intro n s
  induction n generalizing s with
  | zero => rfl
  | succ n ih => rw [run_succ core (step_eq_next_stepAt s), ih, runAt_succ]

end

section
/-! PROOFS. The family of 70_reset_and_hazards.md: a reset empties the queue and the count of responses starts again (R93, R94), the combinational engine (R91), and the response ports while no response is valid (R95). -/

namespace Sys2Proof.Machine

/-! ## What is answered and what is in flight (R36, R94) -/

/-- What enters is the last result the queue owes. -/
theorem enqueue_map_result (L : Nat) (entering : Option ByteVector16) (q : List Pending) :
    (enqueue L entering q).map (·.result) = q.map (·.result) ++ entering.toList := by
  cases entering with
  | none => simp
  | some r => simp

/-- After a cycle without reset the engine owes what was in flight, then the response to the request presented, if there is one. -/
theorem stepAt_owed {L : Nat} {s : State} (h : s.ports.rst = false ∨ L = 0) :
    (stepAt L s).owed = s.inFlight.map (·.result) ++ ((requestAt 0 s).map response).toList := by
  rw [stepAt_eq_cycle h, cycle_owed, enqueue_map_result]

theorem responses_succ (L n : Nat) (s : State) :
    responses L (n + 1) s = (stepAt L s).rsp.toList ++ responses L n (stepAt L s) := rfl

/-- The requests of a stretch are that of its first cycle, if there is one, and those of the rest. -/
theorem requests_succ (L n : Nat) (s : State) :
    requests (n + 1) s = (requestAt 0 s).toList ++ requests n (stepAt L s) := by
  rw [requests, requests, requestAt_zero, stepAt_input]
  cases hin : s.input with
  | nil => simp [hin, Ports.quiet]
  | cons p ps => cases hvalid : p.reqValid <;> simp [ports_cons s p ps hin, hvalid]

/-- While no reset takes effect, what is answered and what is then in flight are, in order, what was in flight and the responses to the requests presented, whatever the queue. -/
theorem responses_append_inFlight {L n : Nat} {s : State} (h : s.NoReset L n) :
    responses L n s ++ (runAt L n s).inFlight.map (·.result) =
      s.inFlight.map (·.result) ++ (requests n s).map response := by
  induction n generalizing s with
  | zero => simp [responses, requests]
  | succ n ih =>
    calc responses L (n + 1) s ++ (runAt L (n + 1) s).inFlight.map (·.result)
        = (stepAt L s).rsp.toList ++ (responses L n (stepAt L s) ++
            (runAt L n (stepAt L s)).inFlight.map (·.result)) := by
          rw [responses_succ, runAt_succ, List.append_assoc]
      _ = (stepAt L s).owed ++ (requests n (stepAt L s)).map response := by
          rw [ih h.stepAt, State.owed, List.append_assoc]
      _ = s.inFlight.map (·.result) ++ (requests (n + 1) s).map response := by
          rw [stepAt_owed h.ports, requests_succ L, List.map_append, Option.toList_map,
            List.append_assoc]

/-- Where reset takes effect, nothing else does (R83, R94). -/
theorem stepAt_eq_resetCycle {L : Nat} {s : State} (hL : 0 < L) (h : s.ports.rst = true) :
    stepAt L s = resetCycle s := by
  obtain ⟨-, -, hp⟩ | ⟨hno, -⟩ | ⟨hno, -⟩ := presented_cases L s.ports
  · rw [stepAt, hp]
  · simp [h, hL.ne'] at hno
  · simp [h, hL.ne'] at hno

/-! ## The engine of latency 0 (R91) -/

/-- Nothing can be pending where everything is due in fewer than 0 cycles. -/
theorem State.Inv.inFlight_eq_nil {s : State} (h : s.Inv 0) : s.inFlight = [] :=
  have ⟨_, hdue⟩ := h
  List.eq_nil_iff_forall_not_mem.2 fun e he => Nat.not_lt_zero _ (hdue e he)

/-- With nothing in flight and latency 0, what enters is answered in the same cycle. -/
theorem cycle_zero_of_inFlight_eq_nil {s : State} (h : s.inFlight = [])
    (entering : Option ByteVector16) : cycle 0 entering s = ⟨s.input.tail, [], entering⟩ := by
  cases entering with
  | none => simp [cycle, h, dequeue, dueResponse]
  | some r => simp [cycle, h, dequeue, dueResponse]

/-! ## The response pins (R95) -/

/-- While `rsp_valid` is 0 the data pins are free. -/
theorem outPins_of_rsp_eq_none {s : State} (h : s.rsp = none) (idle : PortVec) :
    s.outPins idle = ⟨false, idle⟩ := by rw [State.outPins, h]

/-- While `rsp_valid` is 1 the data pins carry the response. -/
theorem outPins_of_rsp_eq_some {s : State} {v : ByteVector16} (h : s.rsp = some v)
    (idle : PortVec) : s.outPins idle = ⟨true, flat v⟩ := by rw [State.outPins, h]

end Sys2Proof.Machine

open Sys2Proof Sys2Proof.Machine

/-- Settles O43: the reset cycle leaves the queue empty, and from an empty queue only the requests presented since are answered or in flight. -/
theorem resetDropsWhatIsInFlight : Obligations.ResetDropsWhatIsInFlight := by
  intro L s p ps hL hin hrst
  have hempty : (stepAt L s).inFlight = [] := by
    rw [stepAt_eq_resetCycle hL (ports_cons s p ps hin ▸ hrst), resetCycle_inFlight]
  refine ⟨hempty, fun n hreset => ?_⟩
  rw [responses_append_inFlight hreset, hempty, List.map_nil, List.nil_append]

/-- Settles O31, by the two fields of the reset state. -/
theorem resetLeavesNothingInFlight : Obligations.ResetLeavesNothingInFlight :=
  ⟨reset_inFlight, reset_rsp⟩

/-- Settles O45: at latency 0 every cycle is one without reset, and it starts with nothing in flight. -/
theorem combinationalEngineAnswersAtOnce : Obligations.CombinationalEngineAnswersAtOnce := by
  intro s p ps hinv hin
  rw [stepAt_eq_cycle (.inr rfl), cycle_zero_of_inFlight_eq_nil hinv.inFlight_eq_nil,
    requestAt_zero, ports_cons s p ps hin, hin]
  cases p.reqValid with
  | false => rfl
  | true => rfl

/-- Settles O48: the read is settled by whether a response is valid, and so are the pins. -/
theorem readIsRefusedWhileNotValid : Obligations.ReadIsRefusedWhileNotValid := by
  intro s
  obtain ⟨v, hrsp, hread⟩ | ⟨hrsp, hread⟩ := readResponse_cases s
  · refine ⟨fun hnone => absurd hnone (by simp [hrsp]), fun w hw => ?_⟩
    obtain rfl : v = w := Option.some.inj (hrsp.symm.trans hw)
    exact ⟨hread, outPins_of_rsp_eq_some hrsp⟩
  · exact ⟨fun _ => ⟨hread, outPins_of_rsp_eq_none hrsp⟩, fun w hw => absurd hw (by simp [hrsp])⟩

end

section
/-! PROOFS. Encoding and decoding: the fields of a request word and its ports (R45, R49, R50), the round trips of both ways (R52, R53), and the step that runs the operation its ports decode to (R47, R48). -/

namespace Sys2Proof.Machine

/-- `flat` undoes `lanes`: bit `8*i+k` of the port is bit `k` of lane `i` (R33). -/
@[simp] theorem flat_lanes (w : PortVec) : flat (lanes w) = w := by
  apply BitVec.eq_of_getLsbD_eq
  intro j hj
  have hi : j / 8 < 16 := by omega
  have hk : j % 8 < 8 := by omega
  rw [← Nat.div_add_mod j 8, flat_getLsbD _ _ _ hi hk, lanes_lane, BitVec.getLsbD_extractLsb',
    decide_eq_true hk, Bool.true_and]

end Sys2Proof.Machine

namespace Sys2Proof

/-! ## From an operation to its word and back (R50, R52, R53) -/

/-- The request word that ports spell decodes field by field to what they carry. -/
theorem decodeReq_reqWord (p : Ports) : decodeReq p.reqWord = decodePorts p := by
  have hop : p.reqWord.extractLsb' 264 1 = p.reqOp := BitVec.extractLsb'_append_eq_left
  have hcount : p.reqWord.extractLsb' 256 8 = p.reqCount :=
    (BitVec.extractLsb'_append_eq_of_add_le (by decide)).trans BitVec.extractLsb'_append_eq_left
  have hvectors : p.reqWord.extractLsb' 0 256 = p.reqA ++ p.reqB :=
    (BitVec.extractLsb'_append_eq_of_add_le (by decide)).trans BitVec.extractLsb'_append_eq_right
  have hA : p.reqWord.extractLsb' 128 128 = p.reqA := by
    rw [← BitVec.extractLsb'_append_eq_left (a := p.reqA) (b := p.reqB), ← hvectors,
      BitVec.extractLsb'_extractLsb'_of_le (by decide)]
  have hB : p.reqWord.extractLsb' 0 128 = p.reqB := by
    rw [← BitVec.extractLsb'_append_eq_right (a := p.reqA) (b := p.reqB), ← hvectors,
      BitVec.extractLsb'_extractLsb'_of_le (by decide)]
  rw [decodeReq, hop, hcount, hA, hB, decodePorts]

/-- The ports that present an operation spell its canonical request word. -/
theorem reqWord_encodePorts (i : Instr) : (encodePorts i).reqWord = encodeReq i := by
  have hctl : (encodeCtl i).extractLsb' 8 1 ++ (encodeCtl i).extractLsb' 0 8 = encodeCtl i :=
    BitVec.extractLsb'_append_extractLsb'
  rw [encodeReq, ← hctl, BitVec.append_assoc, BitVec.cast_eq]
  rfl

/-- The ports that present an operation decode to it. -/
theorem decodePorts_encodePorts (i : Instr) : decodePorts (encodePorts i) = i := by
  cases i with
  | alignRight high low count =>
    have hselect : (encodePorts (.alignRight high low count)).reqOp = 0 :=
      Laws.SelectBit.alignRight high low count
    have hcount : (encodePorts (.alignRight high low count)).reqCount = count :=
      BitVec.extractLsb'_append_eq_right
    rw [decodePorts, hselect, hcount, decodeFields_zero]
    simp only [encodePorts, encodeA, encodeB, Machine.lanes_flat]
  | shuffleBytes source selector =>
    have hselect : (encodePorts (.shuffleBytes source selector)).reqOp = 1 :=
      Laws.SelectBit.shuffleBytes source selector
    rw [decodePorts, hselect, decodeFields_one]
    simp only [encodePorts, encodeA, encodeB, Machine.lanes_flat]

/-- Decoding the canonical request word of an operation gives it back. -/
theorem decodeReq_encodeReq (i : Instr) : decodeReq (encodeReq i) = i := by
  rw [← reqWord_encodePorts, decodeReq_reqWord, decodePorts_encodePorts]

/-! ## From a word to its operation and back (R50, R53) -/

/-- The two vector fields side by side are the low 256 bits of the word. -/
theorem reqWord_vectors (w : ReqWord) :
    w.extractLsb' 128 128 ++ w.extractLsb' 0 128 = w.extractLsb' 0 256 :=
  BitVec.extractLsb'_append_extractLsb'_eq_extractLsb' rfl

/-- A word with bit 264 clear is canonical: its fields are put back where they were. -/
theorem encodeReq_decodeReq_alignRight {w : ReqWord} (h : w.getLsbD 264 = false) :
    encodeReq (decodeReq w) = w := by
  have hselect : (0#1 : OpSelect) = w.extractLsb' 264 1 := by
    rw [extractLsb'_one_eq_ofBool, h]; rfl
  have hctl : w.extractLsb' 264 1 ++ w.extractLsb' 256 8 = w.extractLsb' 256 9 :=
    BitVec.extractLsb'_append_extractLsb'_eq_extractLsb' rfl
  have hword : w.extractLsb' 256 9 ++ w.extractLsb' 0 256 = w :=
    BitVec.extractLsb'_append_extractLsb'
  rw [decodeReq_eq_ite, h, if_neg Bool.false_ne_true]
  simp only [encodeReq, encodeCtl, encodeA, encodeB, Machine.flat_lanes]
  rw [hselect, hctl, reqWord_vectors, hword]

/-- A word with bit 264 set keeps its vectors, and its count field becomes 0. -/
theorem encodeReq_decodeReq_shuffleBytes {w : ReqWord} (h : w.getLsbD 264 = true) :
    encodeReq (decodeReq w) = 1#1 ++ (0#8 ++ w.extractLsb' 0 256) := by
  have hctl : (0x100 : CtlWord) = 1#1 ++ 0#8 := rfl
  rw [decodeReq_eq_ite, h, if_pos rfl]
  simp only [encodeReq, encodeCtl, encodeA, encodeB, Machine.flat_lanes]
  rw [reqWord_vectors, hctl, BitVec.append_assoc, BitVec.cast_eq]

/-! ## Words of the opcode table (R49, R54) -/

/-- What the reader of the table makes of a word is what the ports that present it decode to. -/
theorem decodePorts_tablePorts {nbits w : Nat} {i : Instr} (h : decodeTableWord nbits w = some i) :
    decodePorts (tablePorts w) = i := by
  rw [decodeTableWord, decodeCtlNat] at h
  split_ifs at h
  · exact Option.some.inj h
  · cases h

end Sys2Proof

namespace Sys2Proof.Machine

/-- Where a request is presented and no reset takes effect, the step is `exec` of the operation the ports decode to. -/
theorem step_eq_exec {s : State} (hvalid : s.ports.reqValid = true)
    (hrst : s.ports.rst = false ∨ Config.latency = 0) : step s = exec (decodePorts s.ports) s := by
  obtain ⟨hno, hL, -⟩ | ⟨-, hno, -⟩ | ⟨-, -, hports⟩ := presented_cases Config.latency s.ports
  · simp [hno, hL.ne'] at hrst
  · simp [hvalid] at hno
  · rw [step, hports]

end Sys2Proof.Machine

open Sys2Proof Sys2Proof.Machine

/-- Settles O5: the word is what the presenting ports spell, and those decode to the operation. -/
theorem decodeOfEncodeIsTheOperation : Obligations.DecodeOfEncodeIsTheOperation := fun i _ =>
  decodeReq_encodeReq i

/-- Settles O3: bit `8*i+k` of the port and bit `k` of lane `i` are one, read both ways. -/
theorem lanesAndFlatAreInverse : Obligations.LanesAndFlatAreInverse := ⟨lanes_flat, flat_lanes⟩

/-- Settles O6, by the select bit. -/
theorem encodeOfDecodeClearsOnlyTheIgnoredField :
    Obligations.EncodeOfDecodeClearsOnlyTheIgnoredField := by
  intro w
  split_ifs with h
  · exact encodeReq_decodeReq_shuffleBytes h
  · exact encodeReq_decodeReq_alignRight (Bool.eq_false_iff.2 h)

/-- Settles O10, by the round trips of the ports. -/
theorem portsCarryTheRequestWord : Obligations.PortsCarryTheRequestWord :=
  ⟨decodeReq_reqWord, fun i => ⟨reqWord_encodePorts i, decodePorts_encodePorts i⟩⟩

/-- Settles O11: both readers look at the size of the number alone. -/
theorem everyWordDecodes : Obligations.EveryWordDecodes := fun _ _ _ =>
  ⟨fun h => ⟨_, if_pos h⟩, fun h => if_neg h.not_gt, fun h => ⟨_, if_pos h⟩,
    fun h => if_neg h.not_gt⟩

/-- Settles O12: the select bit of each word, and the fields of the two request words. -/
theorem wordsOfTheSpecDecode : Obligations.WordsOfTheSpecDecode := by
  refine ⟨fun a b => ⟨rfl, rfl, rfl, rfl, rfl, rfl⟩, ?_, ?_⟩
  · rfl
  · rfl

/-- Settles O32, by what the ports amount to. -/
theorem stepRunsThePresentedOperation : Obligations.StepRunsThePresentedOperation := by
  intro s p ps hin hvalid hrst
  obtain rfl : s.ports = p := ports_cons s p ps hin
  exact step_eq_exec hvalid hrst

/-- Settles O33: the placed word is on the ports of the coming cycle, and they decode to what the table reader reads. -/
theorem stepRunsThePlacedTableWord : Obligations.StepRunsThePlacedTableWord := by
  intro s nbits w i h
  have hports : (s.withFetchWord nbits w).ports = tablePorts w := ports_cons _ _ _ rfl
  rw [step_eq_exec (hports ▸ rfl) (.inl (hports ▸ rfl)), hports, decodePorts_tablePorts h]

end

section
/-! PROOFS. What the two datapaths do to whole vectors: which lane a result copies (R67, R75), the laws of 40_alignright.md section 5, and those of 41_shufflebytes.md section 5. -/

namespace Sys2Proof.Machine

/-! ## Shifts by AlignRight (40_alignright.md section 5) -/

/-- A lane of the zero-filled shift toward lane 0. -/
theorem alignRight_zeroVec_lane (x : ByteVector16) (n : Count) {i : Nat} (hi : i < 16) :
    (alignRight zeroVec x n)[i] = if h : n.toNat + i ≤ 15 then x[n.toNat + i] else 0 := by
  rw [alignRight_lane]
  simp only [zeroVec_lane, dite_eq_ite, ite_self]

/-- A lane of the zero-filled shift toward lane 15, which keeps `x` above zeros. -/
theorem alignRight_low_zeroVec_lane (x : ByteVector16) {n : Count} (hn : n.toNat ≤ 16) {i : Nat}
    (hi : i < 16) :
    (alignRight x zeroVec (16 - n))[i] = if n.toNat ≤ i then x[i - n.toNat] else 0 := by
  have hcount : (16 - n).toNat = 16 - n.toNat := BitVec.toNat_sub_of_le hn
  split_ifs with h
  · rw [alignRight_lane_eq_high x zeroVec hi (by omega)]
    congr 1
    omega
  · rw [alignRight_lane_eq_low x zeroVec (by omega), zeroVec_lane]

/-- A lane of the rotation. -/
theorem alignRight_self_lane (x : ByteVector16) {n : Count} (hn : n.toNat ≤ 16) {i : Nat}
    (hi : i < 16) :
    (alignRight x x n)[i] = x[(i + n.toNat) % 16]'(Nat.mod_lt _ (by decide)) := by
  by_cases h : n.toNat + i ≤ 15
  · rw [alignRight_lane_eq_low x x h]
    congr 1
    omega
  · rw [alignRight_lane_eq_high x x hi (by omega)]
    congr 1
    omega

/-- Two zero-filled shifts are one, while the sum of the counts is a count. -/
theorem alignRight_zeroVec_add (x : ByteVector16) {m n : Count} (h : m.toNat + n.toNat ≤ 255) :
    alignRight zeroVec (alignRight zeroVec x m) n = alignRight zeroVec x (m + n) := by
  have hsum : (m + n).toNat = m.toNat + n.toNat := BitVec.toNat_add_of_lt (by omega)
  ext1 i hi
  simp only [alignRight_zeroVec_lane, hsum, ← Nat.add_assoc]
  split_ifs with h1 h2 h3
  · rfl
  · rfl
  · omega
  · rfl

/-- From count 16 on, AlignRight is a zero-filled shift of `high`. -/
theorem alignRight_fold (high low : ByteVector16) {c : Count} (hc : 16 ≤ c.toNat) :
    alignRight high low c = alignRight zeroVec high (c - 16) := by
  have hcount : (c - 16).toNat = c.toNat - 16 := BitVec.toNat_sub_of_le hc
  ext1 i hi
  rw [alignRight_zeroVec_lane]
  split_ifs with h
  · rw [alignRight_lane_eq_high high low hi (by omega)]
    congr 1
    omega
  · exact alignRight_lane_eq_zero high low hi (by omega)

/-- AlignRight of two adjacent vectors of a sequence of bytes is the window that starts `n` bytes after the lower one. -/
theorem alignRight_adjacent_lane (f : Nat → Byte) (start : Nat) {n : Count} (hn : n.toNat ≤ 16)
    {i : Nat} (hi : i < 16) :
    (alignRight (Vector.ofFn fun j => f (16 + start + j.val))
      (Vector.ofFn fun j => f (start + j.val)) n)[i] = f (start + n.toNat + i) := by
  by_cases h : n.toNat + i ≤ 15
  · rw [alignRight_lane_eq_low _ _ h, Vector.getElem_ofFn, Nat.add_assoc]
  · rw [alignRight_lane_eq_high _ _ hi (by omega), Vector.getElem_ofFn]
    congr 1
    simp only
    omega

/-! ## A lane of a shuffle by the value of its selector byte (R75) -/

/-- A selector byte of 0x80 or more zeroes its lane. -/
theorem shuffleBytes_lane_of_le (source : ByteVector16) {selector : ByteVector16} {i : Nat}
    (hi : i < 16) (h : 128 ≤ selector[i].toNat) : (shuffleBytes source selector)[i] = 0 :=
  shuffleBytes_lane_eq_zero source hi ((zeroFlag_iff _).2 h)

/-- A selector byte that is the number of a lane copies that lane. -/
theorem shuffleBytes_lane_of_index (source : ByteVector16) {selector : ByteVector16} {i k : Nat}
    (hi : i < 16) (hk : k < 16) (h : selector[i] = BitVec.ofNat 8 k) :
    (shuffleBytes source selector)[i] = source[k] := by
  have hnat : selector[i].toNat = k := by
    rw [h, BitVec.toNat_ofNat]
    omega
  rw [shuffleBytes_lane_eq_source source hi ((zeroFlag_eq_false_iff _).2 (by omega))]
  simp only [laneIndex_eq_mod, hnat, Nat.mod_eq_of_lt hk]

end Sys2Proof.Machine

open Sys2Proof Sys2Proof.Machine

/-- Settles O20, by the three bands of the sum of count and lane. -/
theorem alignRightLaneCopiesOneLaneOrIsZero : Obligations.AlignRightLaneCopiesOneLaneOrIsZero := by
  intro count i
  by_cases hlow : count.toNat + i.val ≤ 15
  · exact .inl ⟨⟨count.toNat + i.val, by omega⟩, fun high low =>
      alignRight_lane_eq_low high low hlow⟩
  by_cases hhigh : count.toNat + i.val ≤ 31
  · exact .inr (.inl ⟨⟨count.toNat + i.val - 16, by omega⟩, fun high low =>
      alignRight_lane_eq_high high low i.isLt (by omega)⟩)
  · exact .inr (.inr fun high low => alignRight_lane_eq_zero high low i.isLt (by omega))

/-- Settles O21, by the lanes of a zero-filled shift. -/
theorem alignRightShiftsCompose : Obligations.AlignRightShiftsCompose :=
  ⟨fun x _ _ => alignRight_zeroVec_add x, fun high low _ => alignRight_fold high low⟩

/-- Settles O22: both windows are of adjacent vectors, the lower one starting at byte 0 or 16. -/
theorem alignRightIsASlidingWindow : Obligations.AlignRightIsASlidingWindow := by
  intro f n hn i
  have hfirst := alignRight_adjacent_lane f 0 hn i.isLt
  simp only [Nat.add_zero, Nat.zero_add] at hfirst
  exact ⟨hfirst, alignRight_adjacent_lane f 16 hn i.isLt⟩

/-- Settles O27: the byte's zeroing flag and its index field are all that counts. -/
theorem shuffleLaneDependsOnItsOwnSelectorByte :
    Obligations.ShuffleLaneDependsOnItsOwnSelectorByte := by
  intro sel
  cases hflag : zeroFlag sel with
  | true =>
    refine .inl fun source selector i hsel => shuffleBytes_lane_eq_zero source i.isLt ?_
    exact (congrArg zeroFlag hsel).trans hflag
  | false =>
    refine .inr ⟨⟨laneIndex sel, laneIndex_lt sel⟩, fun source selector i hsel => ?_⟩
    subst hsel
    exact shuffleBytes_lane_eq_source source i.isLt hflag

/-- Settles O29, lane by lane: where the second selector copies, the first decides. -/
theorem shufflesCompose : Obligations.ShufflesCompose := by
  intro source s1 s2
  ext1 i hi
  by_cases h : 128 ≤ s2[i].toNat
  · rw [shuffleBytes_lane_of_le _ hi h, shuffleBytes_lane_of_le _ hi (by simp [h])]
  · rw [shuffleBytes_lane_eq_source _ hi ((zeroFlag_eq_false_iff _).2 (by omega)),
      shuffleBytes_lane, shuffleBytes_lane]
    simp only [Vector.getElem_ofFn, Fin.getElem_fin, if_neg h]
    rfl

/-- Settles O30: lane by lane, each selector byte is the lane AlignRight copies, or 0x80 where it fills with zero. -/
theorem bothDatapathsRotateAndShiftAlike : Obligations.BothDatapathsRotateAndShiftAlike := by
  refine fun x n => ⟨fun hn => ?_, ?_, fun hn => ?_⟩
  · ext1 i hi
    rw [alignRight_self_lane x hn hi]
    exact (shuffleBytes_lane_of_index x hi _ (Vector.getElem_ofFn hi)).symm
  · ext1 i hi
    rw [alignRight_zeroVec_lane]
    simp only [Nat.add_comm n.toNat i]
    split_ifs with h
    · exact (shuffleBytes_lane_of_index x hi _ (by rw [Vector.getElem_ofFn, if_pos h])).symm
    · exact (shuffleBytes_lane_of_le x hi (by simp [h])).symm
  · ext1 i hi
    rw [alignRight_low_zeroVec_lane x hn hi]
    split_ifs with h
    · exact (shuffleBytes_lane_of_index x hi _ (by rw [Vector.getElem_ofFn, if_pos h])).symm
    · exact (shuffleBytes_lane_of_le x hi (by simp [h])).symm

/-- Settles O28: each selector byte is the number of lane `k`. -/
theorem shuffleBroadcasts : Obligations.ShuffleBroadcasts := by
  intro source k
  ext1 i hi
  rw [Vector.getElem_ofFn]
  exact shuffleBytes_lane_of_index source hi k.isLt (Vector.getElem_ofFn hi)

end

section
/-! PROOFS. Runs of one instance: the queue invariant along a run (R28), every request answered exactly once and in order (R36), timing that no data touches (R100), and what else an instance is made of: the frame of an operation, the queue of operands, other instances, reset. -/

namespace Sys2Proof.Machine

/-! ## Along a run (R28, R36) -/

/-- A run keeps the queue invariant. -/
theorem State.Inv.runAt {L n : Nat} {s : State} (h : s.Inv L) : (runAt L n s).Inv L := by
  induction n generalizing s with
  | zero => exact h
  | succ n ih => exact ih h.stepAt

/-- A shorter stretch without reset. -/
theorem State.NoReset.mono {L m n : Nat} {s : State} (h : s.NoReset L n) (hmn : m ≤ n) :
    s.NoReset L m := fun p hp => h p (List.take_subset_take_left s.input hmn hp)

/-- What is left of a stretch without reset after `m` cycles of it. -/
theorem State.NoReset.runAt {L m n : Nat} {s : State} (h : s.NoReset L (m + n)) :
    (runAt L m s).NoReset L n := by
  intro p hp
  rw [runAt_input, List.take_drop] at hp
  exact h p (List.mem_of_mem_drop hp)

/-- The responses of two stretches, one after the other. -/
theorem responses_add (L m n : Nat) (s : State) :
    responses L (m + n) s = responses L m s ++ responses L n (runAt L m s) := by
  induction m generalizing s with
  | zero => simp [responses]
  | succ m ih => rw [Nat.succ_add, responses_succ, responses_succ, ih, runAt_succ, List.append_assoc]

/-! ## Every pending request is answered when it is due (R36) -/

/-- The pending requests due in the coming `k` cycles. -/
abbrev dueWithin (k : Nat) (q : List Pending) : List Pending := q.filter fun e => e.left < k

/-- What enters now is not due within `L` cycles. -/
theorem dueWithin_enqueue {L k : Nat} (hk : k ≤ L) (entering : Option ByteVector16)
    (q : List Pending) : dueWithin k (enqueue L entering q) = dueWithin k q := by
  cases entering with
  | none => rfl
  | some r => simp [hk]

/-- The response of the coming cycle is among what is due in it or later. -/
theorem dueResponse_dueWithin {q : List Pending} (h : DueInTurn q) (k : Nat) :
    dueResponse (dueWithin (k + 1) q) = dueResponse q := by
  ext r
  rw [dueResponse_eq_some_iff (h.filter _), dueResponse_eq_some_iff h]
  simp

/-- After a cycle, what is due within `k` is what was due within `k + 1` and has not been answered. -/
theorem dueWithin_dequeue {q : List Pending} (h : DueInTurn q) (k : Nat) :
    dueWithin k (dequeue q) = dequeue (dueWithin (k + 1) q) := by
  rw [dequeue_eq_map_filter h, dequeue_eq_map_filter (h.filter _), dueWithin, List.filter_map,
    List.filter_filter, List.filter_filter]
  congr 1
  refine List.filter_congr fun e _ => ?_
  by_cases he : e.left = 0
  · simp [he]
  · have hleft : e.left - 1 < k ↔ e.left < k + 1 := by omega
    simp [he, hleft]

/-- The responses of the first `k` cycles, for `k` up to `L`, are the results in flight that are due in them: nothing presented meanwhile is due so soon. -/
theorem responses_eq_dueWithin {L k : Nat} {s : State} (hinv : s.Inv L) (hreset : s.NoReset L k)
    (hk : k ≤ L) : responses L k s = (dueWithin k s.inFlight).map (·.result) := by
  induction k generalizing s with
  | zero => simp [responses]
  | succ k ih =>
    have hturn := hinv.dueInTurn_enqueue ((requestAt 0 s).map response)
    rw [responses_succ, ih hinv.stepAt hreset.stepAt (Nat.le_of_succ_le hk),
      stepAt_eq_cycle hreset.ports, cycle_rsp, cycle_inFlight, dueWithin_dequeue hturn,
      ← dueResponse_dueWithin hturn k, dueResponse_append_dequeue, dueWithin_enqueue hk]

/-- Within `L` cycles exactly what was in flight is answered. -/
theorem responses_latency {L : Nat} {s : State} (hinv : s.Inv L) (hreset : s.NoReset L L) :
    responses L L s = s.inFlight.map (·.result) := by
  have ⟨_, hdue⟩ := hinv
  have hall : dueWithin L s.inFlight = s.inFlight :=
    List.filter_eq_self.2 fun e he => decide_eq_true (hdue e he)
  rw [responses_eq_dueWithin hinv hreset le_rfl, hall]

/-- The requests of `n` cycles, and those in flight before, are answered within `n + L` cycles, and no other. -/
theorem responses_add_latency {L n : Nat} {s : State} (hinv : s.Inv L)
    (hreset : s.NoReset L (n + L)) :
    responses L (n + L) s = s.inFlight.map (·.result) ++ (requests n s).map response := by
  rw [responses_add, responses_latency hinv.runAt hreset.runAt,
    responses_append_inFlight (hreset.mono (Nat.le_add_right n L))]

/-! ## Timing (R100) -/

/-- Where the queue is one request longer, and by how far that request is off. -/
theorem enqueue_map_left (L : Nat) (entering : Option ByteVector16) (q : List Pending) :
    (enqueue L entering q).map (·.left) = q.map (·.left) ++ if entering.isSome then [L] else [] := by
  cases entering with
  | none => simp
  | some r => simp

/-- Whether there is a response is settled by how far the oldest request is. -/
theorem dueResponse_isSome (q : List Pending) :
    (dueResponse q).isSome = decide ((q.map (·.left)).head? = some 0) := by
  obtain ⟨rfl, hdue, -⟩ | ⟨e, rest, rfl, he, hdue, -⟩ | ⟨e, rest, rfl, he, hdue, -⟩ :=
    queue_cycle_cases q
  · simp [hdue]
  · simp [hdue, he]
  · simp [hdue, he]

/-- How far the requests are after a cycle is settled by how far they were. -/
theorem dequeue_map_left (q : List Pending) :
    (dequeue q).map (·.left) = (if (q.map (·.left)).head? = some 0 then (q.map (·.left)).tail
      else q.map (·.left)).map (· - 1) := by
  obtain ⟨rfl, -, hrest⟩ | ⟨e, rest, rfl, he, -, hrest⟩ | ⟨e, rest, rfl, he, -, hrest⟩ :=
    queue_cycle_cases q
  · simp [hrest]
  · simp [hrest, he, Function.comp_def]
  · simp [hrest, he, Function.comp_def]

/-- What the ports of the coming cycle show to `f` is what the drive does. -/
theorem ports_apply {α : Type} (f : Ports → α) (s : State) :
    f s.ports = (s.input.map f).headD (f Ports.quiet) := by
  cases h : s.input with
  | nil => rw [ports_nil s h]; rfl
  | cons p ps => rw [ports_cons s p ps h]; rfl

/-- Instances alike in timing agree on the reset and on the request of the coming cycle. -/
theorem State.SameTiming.ports {s t : State} (h : s.SameTiming t) :
    s.ports.rst = t.ports.rst ∧ s.ports.reqValid = t.ports.reqValid := by
  obtain ⟨hinput, -, -⟩ := h
  rw [← Prod.mk.injEq, ports_apply (fun p => (p.rst, p.reqValid)) s, hinput,
    ← ports_apply (fun p => (p.rst, p.reqValid)) t]

/-- A cycle that accepts a request in both or in neither keeps two instances alike in timing. -/
theorem State.SameTiming.cycle {s t : State} (h : s.SameTiming t) (L : Nat)
    {entering entering' : Option ByteVector16} (he : entering.isSome = entering'.isSome) :
    (cycle L entering s).SameTiming (cycle L entering' t) := by
  obtain ⟨hinput, hqueue, -⟩ := h
  have hleft : (enqueue L entering s.inFlight).map (·.left) =
      (enqueue L entering' t.inFlight).map (·.left) := by
    rw [enqueue_map_left, enqueue_map_left, hqueue, he]
  refine ⟨?_, ?_, ?_⟩
  · rw [cycle_input, cycle_input, List.map_tail, List.map_tail, hinput]
  · rw [cycle_inFlight, cycle_inFlight, dequeue_map_left, dequeue_map_left, hleft]
  · rw [cycle_rsp, cycle_rsp, dueResponse_isSome, dueResponse_isSome, hleft]

/-- A reset cycle keeps two instances alike in timing. -/
theorem State.SameTiming.resetCycle {s t : State} (h : s.SameTiming t) :
    (resetCycle s).SameTiming (resetCycle t) := by
  obtain ⟨hinput, -, -⟩ := h
  exact ⟨by rw [resetCycle_input, resetCycle_input, List.map_tail, List.map_tail, hinput], rfl, rfl⟩

/-- A request is accepted in the coming cycle exactly when `req_valid` is 1. -/
theorem requestAt_zero_isSome (s : State) : (requestAt 0 s).isSome = s.ports.reqValid := by
  rw [requestAt_zero]
  cases s.ports.reqValid with
  | false => rfl
  | true => rfl

/-- A cycle keeps two instances alike in timing. -/
theorem State.SameTiming.stepAt {s t : State} (h : s.SameTiming t) (L : Nat) :
    (stepAt L s).SameTiming (stepAt L t) := by
  obtain ⟨hrst, hvalid⟩ := h.ports
  by_cases hno : s.ports.rst = false ∨ L = 0
  · rw [stepAt_eq_cycle hno, stepAt_eq_cycle (hrst ▸ hno)]
    refine h.cycle L ?_
    rw [Option.isSome_map, Option.isSome_map, requestAt_zero_isSome, requestAt_zero_isSome, hvalid]
  · obtain ⟨hasserted, hL⟩ := not_or.1 hno
    have hs : s.ports.rst = true := Bool.eq_true_of_not_eq_false hasserted
    rw [stepAt_eq_resetCycle (Nat.pos_of_ne_zero hL) hs,
      stepAt_eq_resetCycle (Nat.pos_of_ne_zero hL) (hrst ▸ hs)]
    exact h.resetCycle

/-- Instances alike in timing stay so along a run. -/
theorem State.SameTiming.runAt {s t : State} (h : s.SameTiming t) (L n : Nat) :
    (runAt L n s).SameTiming (runAt L n t) := by
  induction n generalizing s t with
  | zero => exact h
  | succ n ih => exact ih (h.stepAt L)

/-! ## The queue of operands (R28, 93 U8) -/

/-- A request enters both queues alike. -/
theorem heldEnqueue_map_computed (L : Nat) (entering : Option Instr) (q : List Held) :
    (heldEnqueue L entering q).map Held.computed =
      enqueue L (entering.map response) (q.map Held.computed) := by
  cases entering with
  | none => rfl
  | some i => exact List.map_append

/-- A result computed when it is due is the one held. -/
theorem heldDue_eq_dueResponse (q : List Held) :
    heldDue q = dueResponse (q.map Held.computed) := by
  cases q with
  | nil => rfl
  | cons h q => rfl

/-- Held as operands or as result, a request comes nearer alike. -/
theorem map_heldTick_map_computed (q : List Held) :
    (q.map Held.tick).map Held.computed = (q.map Held.computed).map Pending.tick := by
  rw [List.map_map, List.map_map]
  rfl

/-- Both queues end a cycle alike. -/
theorem heldDequeue_map_computed (q : List Held) :
    (heldDequeue q).map Held.computed = dequeue (q.map Held.computed) := by
  cases q with
  | nil => rfl
  | cons h q =>
    by_cases hdue : h.left = 0
    · rw [heldDequeue, if_pos hdue, map_heldTick_map_computed]
      exact (if_pos hdue).symm
    · rw [heldDequeue, if_neg hdue, map_heldTick_map_computed]
      exact (if_neg hdue).symm

end Sys2Proof.Machine

open Sys2Proof Sys2Proof.Machine

/-- Settles O38: what is not yet answered after `n` cycles is answered in the next `L`. -/
theorem responsesExactlyOnceInOrder : Obligations.ResponsesExactlyOnceInOrder := fun _ _ _ hinv =>
  ⟨responses_append_inFlight, fun hreset =>
    ⟨[], by rw [List.append_nil, responses_add_latency hinv hreset]⟩⟩

/-- Settles O41: the step is a cycle of an instance of its latency, and that keeps the invariant. -/
theorem stepKeepsTheQueueInvariant : Obligations.StepKeepsTheQueueInvariant := by
  refine ⟨fun s t hinv hstep => ?_, fun _ _ hinv => hinv.stepAt⟩
  rw [step_eq_next_stepAt] at hstep
  cases hstep
  exact hinv.stepAt

/-- Settles O47: being alike in timing is kept along the run, and says so of the response ports. -/
theorem timingIsDataIndependent : Obligations.TimingIsDataIndependent := by
  intro L n s t h
  obtain ⟨-, -, hrsp⟩ := h.runAt L (n + 1)
  exact ⟨h.runAt L n, hrsp⟩

/-- Settles O36: the operation is the cycle in which its response enters the queue. -/
theorem execAddsOneResponseAndKeepsTheRest : Obligations.ExecAddsOneResponseAndKeepsTheRest :=
  fun i s => ⟨_, exec_eq_next_cycle i s, cycle_input .., by
    rw [cycle_owed, enqueue_map_result, Option.toList_some]⟩

/-- Settles O50: entering, answering and leaving commute with computing the results. -/
theorem queueOfOperandsIsIndistinguishable : Obligations.QueueOfOperandsIsIndistinguishable := by
  intro L entering q
  rw [← heldEnqueue_map_computed]
  exact ⟨heldDue_eq_dueResponse _, heldDequeue_map_computed _⟩

/-- Settles O51: a cycle changes one place of the list. -/
theorem instancesShareNothing : Obligations.InstancesShareNothing := fun sys _ _ h =>
  ⟨List.getElem?_modify_ne _ sys h.symm, List.modify_modify_ne _ _ sys h.symm,
    List.getElem?_modify_eq _ _ sys⟩

/-- Settles O40: nothing is in flight at reset. -/
theorem resetMeetsTheQueueInvariant : Obligations.ResetMeetsTheQueueInvariant := fun _ =>
  ⟨List.Pairwise.nil, fun _ h => absurd h List.not_mem_nil⟩

/-- Settles O44: where reset takes effect, the cycle is the reset cycle. -/
theorem resetCycleShowsNoResponse : Obligations.ResetCycleShowsNoResponse := by
  intro L s p ps hL hin hrst
  rw [stepAt_eq_resetCycle hL (ports_cons s p ps hin ▸ hrst), resetCycle, hin, List.tail_cons]

/-- Settles O49: the style reaches no field of the ports but `rst`. -/
theorem resetStylesDifferInThePinOnly : Obligations.ResetStylesDifferInThePinOnly :=
  ⟨fun _ _ _ => ⟨rfl, rfl, rfl, rfl⟩, fun _ _ _ => ⟨rfl, rfl, rfl, rfl, fun h => by
    rw [Pins.ports, Pins.ports, h]⟩⟩

end

section
/-! PROOFS. Listings and scripts of the requester (R56, R57): when a script is accepted, that an accepted one has a meaning, and that an engine of any latency carries it out. -/

namespace Sys2Proof

/-! ## When a check passes (R56, R57) -/

@[simp] theorem ok_bind {ε α β : Type} (a : α) (f : α → Except ε β) :
    (Except.ok a >>= f) = f a := rfl

@[simp] theorem error_bind {ε α β : Type} (e : ε) (f : α → Except ε β) :
    (Except.error e >>= f) = .error e := rfl

/-- A check followed by a check passes exactly when both do. -/
theorem bind_eq_ok_unit_iff {ε : Type} (x y : Except ε Unit) :
    (do x; y) = .ok () ↔ x = .ok () ∧ y = .ok () := by
  cases x with
  | error e => simp
  | ok u => simp

theorem countCheck_eq_ok_iff (n : Nat) : countCheck n = .ok () ↔ n < 256 := by
  rw [countCheck]
  split_ifs with h <;> simp [h]

theorem Operand.check_eq_ok_iff (bound : List String) (o : Operand) :
    o.check bound = .ok () ↔ ∀ n ∈ o.uses, n ∈ bound := by
  cases o with
  | literal v => simp [Operand.check, Operand.uses]
  | name n => by_cases h : n ∈ bound <;> simp [Operand.check, Operand.uses, h]

theorem Call.check_eq_ok_iff (bound : List String) (c : Call) :
    c.check bound = .ok () ↔ (∀ n ∈ c.uses, n ∈ bound) ∧ c.countFits = true := by
  cases c with
  | alignRight x y n =>
    simp only [Call.check, Call.uses, Call.countFits, bind_eq_ok_unit_iff,
      Operand.check_eq_ok_iff, countCheck_eq_ok_iff, List.forall_mem_append, decide_eq_true_iff,
      and_assoc]
  | shuffleBytes x y =>
    simp only [Call.check, Call.uses, Call.countFits, bind_eq_ok_unit_iff,
      Operand.check_eq_ok_iff, List.forall_mem_append, and_true]

theorem Line.check_eq_ok_iff (bound : List String) (l : Line) :
    l.check bound = .ok () ↔
      (∀ n ∈ l.uses, n ∈ bound) ∧ l.countFits = true ∧ l.target ∉ bound := by
  cases l with
  | bind n v => by_cases h : n ∈ bound <;> simp [Line.check, Line.uses, Line.countFits, Line.target, h]
  | op n c =>
    by_cases h : n ∈ bound <;>
      simp [Line.check, Line.uses, Line.countFits, Line.target, bind_eq_ok_unit_iff,
        Call.check_eq_ok_iff, h]

theorem Script.checkFrom_cons_eq_ok_iff (bound : List String) (l : Line) (ls : Script) :
    Script.checkFrom bound (l :: ls) = .ok () ↔
      l.check bound = .ok () ∧ Script.checkFrom (bound ++ [l.target]) ls = .ok () :=
  bind_eq_ok_unit_iff _ _

/-- Each line uses only names in `bound` or bound by an earlier line. -/
def Script.UsesBound (bound : List String) (ls : Script) : Prop :=
  ∀ (k : Nat) (l : Line), ls[k]? = some l → ∀ n ∈ l.uses, n ∈ bound ++ (ls.take k).map Line.target

theorem Script.usesBound_cons_iff (bound : List String) (l : Line) (ls : Script) :
    Script.UsesBound bound (l :: ls) ↔
      (∀ n ∈ l.uses, n ∈ bound) ∧ Script.UsesBound (bound ++ [l.target]) ls := by
  rw [Script.UsesBound, ← Nat.and_forall_add_one]
  simp [Script.UsesBound]

/-- The lines of a script pass, after lines that bound `bound`, exactly when no name is bound again, every count fits and every name used is bound before. -/
theorem Script.checkFrom_eq_ok_iff (bound : List String) (ls : Script) :
    Script.checkFrom bound ls = .ok () ↔
      (ls.map Line.target).Disjoint bound ∧ (ls.map Line.target).Nodup ∧
        (∀ l ∈ ls, l.countFits = true) ∧ Script.UsesBound bound ls := by
  induction ls generalizing bound with
  | nil => simp [Script.checkFrom, Script.UsesBound]
  | cons l ls ih =>
    rw [Script.checkFrom_cons_eq_ok_iff, Line.check_eq_ok_iff, ih, Script.usesBound_cons_iff,
      List.map_cons, List.disjoint_cons_left, List.nodup_cons, List.forall_mem_cons,
      List.disjoint_append_right, List.disjoint_singleton]
    tauto

theorem Script.wf_iff_check (ls : Script) : ls.wf = true ↔ ls.check = .ok () := by
  rw [Script.wf]
  cases ls.check with
  | error e => simp [Except.isOk, Except.toBool]
  | ok u => simp [Except.isOk, Except.toBool]

end Sys2Proof

namespace Sys2Proof.Machine

/-! ## A script that passes has a meaning (R57) -/

/-- A name has a value exactly when it is bound. -/
theorem lookup_isSome_iff_mem (env : Env) (n : String) :
    (env.lookup n).isSome = true ↔ n ∈ env.map Prod.fst := by
  rw [List.lookup_isSome_iff, List.mem_map]
  simp only [beq_iff_eq, @eq_comm _ n]

theorem exists_operandValue_of_check {env : Env} {o : Operand}
    (h : o.check (env.map Prod.fst) = .ok ()) : ∃ v, operandValue env o = .ok v := by
  cases o with
  | literal v => exact ⟨v, rfl⟩
  | name n =>
    have hbound := (Operand.check_eq_ok_iff _ _).1 h n (List.mem_singleton_self n)
    obtain ⟨v, hv⟩ := Option.isSome_iff_exists.1 ((lookup_isSome_iff_mem env n).2 hbound)
    exact ⟨v, by rw [operandValue, hv]⟩

theorem exists_callInstr_of_check {env : Env} {c : Call}
    (h : c.check (env.map Prod.fst) = .ok ()) : ∃ i, callInstr env c = .ok i := by
  cases c with
  | alignRight x y n =>
    simp only [Call.check, bind_eq_ok_unit_iff] at h
    obtain ⟨hx, hy, hn⟩ := h
    obtain ⟨high, hhigh⟩ := exists_operandValue_of_check hx
    obtain ⟨low, hlow⟩ := exists_operandValue_of_check hy
    exact ⟨_, by rw [callInstr, hhigh, hlow, hn]; rfl⟩
  | shuffleBytes x y =>
    simp only [Call.check, bind_eq_ok_unit_iff] at h
    obtain ⟨hx, hy⟩ := h
    obtain ⟨source, hsource⟩ := exists_operandValue_of_check hx
    obtain ⟨selector, hselector⟩ := exists_operandValue_of_check hy
    exact ⟨_, by rw [callInstr, hsource, hselector]; rfl⟩

/-- The meaning of an operation line whose operands have values. -/
theorem meaningFrom_op {env : Env} {n : String} {c : Call} {i : Instr} (ls : Script)
    (h : callInstr env c = .ok i) :
    meaningFrom env (.op n c :: ls) = meaningFrom (env ++ [(n, response i)]) ls := by
  rw [meaningFrom, h]; rfl

/-- Lines that pass the check have a meaning, which binds the name of each. -/
theorem exists_meaningFrom_of_check {env : Env} {ls : Script}
    (h : Script.checkFrom (env.map Prod.fst) ls = .ok ()) :
    ∃ env', meaningFrom env ls = .ok env' ∧
      env'.map Prod.fst = env.map Prod.fst ++ ls.map Line.target := by
  induction ls generalizing env with
  | nil => exact ⟨env, rfl, by simp⟩
  | cons l ls ih =>
    obtain ⟨hl, hls⟩ := (Script.checkFrom_cons_eq_ok_iff _ _ _).1 h
    cases l with
    | bind n v =>
      have hrest := ih (env := env ++ [(n, v)]) (by simpa [Line.target] using hls)
      simpa [meaningFrom, Line.target] using hrest
    | op n c =>
      obtain ⟨hc, -⟩ := (bind_eq_ok_unit_iff _ _).1 hl
      obtain ⟨i, hi⟩ := exists_callInstr_of_check hc
      have hrest := ih (env := env ++ [(n, response i)]) (by simpa [Line.target] using hls)
      simpa [meaningFrom_op ls hi, Line.target] using hrest

/-! ## A script carried out on an engine (R47, R57, R99) -/

/-- With nothing else driven, a transaction reads the response to its operation, and leaves an engine for which the same can be said. -/
theorem transact_eq_ok {L : Nat} {s : State} (hinv : s.Inv L) (hinput : s.input = []) (i : Instr) :
    ∃ t, transact L i s = .ok (response i, t) ∧ t.Inv L ∧ t.input = [] := by
  have hstart : State.Inv L { s with input := encodePorts i :: s.input } := hinv
  have hreset : State.NoReset L (L + 1) { s with input := encodePorts i :: s.input } := by
    simp [State.NoReset, hinput, encodePorts]
  have hread : (runAt L (L + 1) { s with input := encodePorts i :: s.input }).rsp =
      some (response i) := by
    have hresponse := outputAt_latency hstart hreset
    rwa [requestAt_zero, ports_cons _ _ _ rfl, decodePorts_encodePorts] at hresponse
  refine ⟨_, ?_, hstart.runAt (n := L + 1), ?_⟩
  · rw [transact, readResponse, hread]
  · rw [runAt_input, hinput, List.drop_succ_cons, List.drop_nil]

/-- Transaction by transaction, the lines are bound as their meaning says. -/
theorem runFrom_map_fst {L : Nat} {s : State} (hinv : s.Inv L) (hinput : s.input = [])
    (env : Env) (ls : Script) : (runFrom L env ls s).map Prod.fst = meaningFrom env ls := by
  induction ls generalizing env s with
  | nil => rfl
  | cons l ls ih =>
    cases l with
    | bind n v => exact ih hinv hinput _
    | op n c =>
      rw [runFrom]
      cases hc : callInstr env c with
      | error e => rw [meaningFrom, hc]; rfl
      | ok i =>
        obtain ⟨t, ht, htinv, htinput⟩ := transact_eq_ok hinv hinput i
        rw [meaningFrom_op ls hc, ← ih htinv htinput, ok_bind, ht, ok_bind]

/-! ## Listings (R56) -/

/-- A vector in the 32-digit form is read back. -/
theorem parseOperand_vectorToken (V : ByteVector16) (rest : List Token) :
    parseOperand (vectorToken V :: rest) = .ok (.literal V, rest) := by
  have hflat : BitVec.ofNat 128 (flat V).toNat = flat V := by simp
  simp [parseOperand, vectorToken, parseLiteral, hflat]

/-- A token that is there is passed over. -/
theorem expectToken_cons_self (t : Token) (rest : List Token) :
    expectToken t (t :: rest) = .ok rest := if_pos rfl

/-- The tokens of an operation on literal operands are read as that operation. -/
theorem parseCall_instrTokens (i : Instr) : parseCall (instrTokens i) = .ok (instrCall i) := by
  cases i with
  | alignRight high low count =>
    simp [instrTokens, instrCall, parseCall, expectToken_cons_self, parseOperand_vectorToken,
      parseNumber]
  | shuffleBytes source selector =>
    simp [instrTokens, instrCall, parseCall, expectToken_cons_self, parseOperand_vectorToken]

/-- A listed operation on literals stands for itself: its count fits. -/
theorem callInstr_instrCall (env : Env) (i : Instr) : callInstr env (instrCall i) = .ok i := by
  cases i with
  | alignRight high low count =>
    have hfits : countCheck count.toNat = .ok () := (countCheck_eq_ok_iff _).2 count.isLt
    simp [instrCall, callInstr, operandValue, hfits]
  | shuffleBytes source selector => rfl

end Sys2Proof.Machine

open Sys2Proof Sys2Proof.Machine

/-- Settles O54: both begin with the same check; after it, line by line, each transaction reads the response its line means. -/
theorem scriptOnTheEngineHasItsMeaning : Obligations.ScriptOnTheEngineHasItsMeaning := by
  intro L ls s hinv hinput
  constructor
  · rw [runScript, scriptMeaning]
    cases hcheck : ls.check with
    | error e => rfl
    | ok u => exact runFrom_map_fst hinv hinput [] ls
  · intro hwf
    have hcheck : Script.checkFrom [] ls = .ok () := (Script.wf_iff_check ls).1 hwf
    rw [scriptMeaning, Script.check, hcheck]
    exact exists_meaningFrom_of_check (env := []) hcheck

/-- Settles O52, by induction on the lines, with the names bound before them. -/
theorem scriptIsAcceptedExactlyWhenWellFormed :
    Obligations.ScriptIsAcceptedExactlyWhenWellFormed := by
  intro ls
  rw [Script.wf_iff_check, Script.check, Script.checkFrom_eq_ok_iff]
  simp [Script.UsesBound]

/-- Settles O55: the tokens are read one after the other, and the check of the count comes before the operation. -/
theorem listingReadsBack : Obligations.ListingReadsBack := by
  refine ⟨fun i => ⟨parseCall_instrTokens i, callInstr_instrCall [] i⟩, fun env high low n hn => ?_⟩
  have hcount : countCheck n = .error (.countTooLarge n) := if_neg hn.not_gt
  rw [callInstr, hcount]
  rfl

/-- Settles O53: the check comes first. -/
theorem illFormedScriptIsRefusedWhole : Obligations.IllFormedScriptIsRefusedWhole := by
  intro L ls s e h
  rw [runScript, scriptMeaning, h]
  exact ⟨rfl, rfl⟩

end
